-- ==== Sys2Proof/Word.lean ====
section
/-! DEFINITION. The words of QDEC's ports and table, each of its own fixed width (30_encoding.md R48, R49). -/

namespace Sys2Proof

/-- The 6-bit command word `cmd[5:0]` (R51). -/
abbrev CommandWord := BitVec 6

/-- The 2-bit pin sample: bit 0 is the level of line A, bit 1 the level of line B (R51, R106). -/
abbrev Sample := BitVec 2

/-- One table entry: low nibble the next state, high nibble the direction (R61). -/
abbrev TableByte := BitVec 8

/-- The returned value `rdata[63:0]` (R48). -/
abbrev ReadData := BitVec 64

end Sys2Proof
end

