-- ==== Sys2Proof/Syntax.lean ====
section
/-! DEFINITION. The instruction type: one constructor per row of spec/opcode_table.json (30_encoding.md section 3). -/

namespace Sys2Proof

/-- The operations of the command port, and the one reserved operation code (R50, R54).
The operand of SETCNT travels on the port `wdata`, not in the command word (R56), so it is no argument here. -/
inductive Instr where
  /-- `op` = 0: do nothing (R73). -/
  | nop
  /-- `op` = 1: advance the decoder by one sample; `serr` says that the adapter's read failed (R62). -/
  | step (serr : Bool) (sample : Sample)
  /-- `op` = 2: load the count from `wdata` (R83). -/
  | setcnt
  /-- `op` = 3: read the count (R84). -/
  | rdcnt
  /-- `op` = 4: read the pulses-per-rotation constant (R85). -/
  | rdppr
  /-- `op` = 5: read the rotations value (R87). -/
  | rdrot
  /-- `op` = 6: read the decoder state (R74). -/
  | rdstate
  /-- `op` = 7: the reserved code, which raises ReservedOperation (R54, R118). -/
  | reserved
  deriving DecidableEq, Repr

end Sys2Proof
end

