-- ==== Sys2Proof/WellFormed.lean ====
section
/-! DEFINITION. Well-formed instructions: those in the canonical form of 30_encoding.md R55. -/

namespace Sys2Proof

/-- The canonical form of an operation (R55): a STEP whose read failed has no sample, so its ignored `sample`
field is 00.  No other operation has an ignored field in `Instr`: the decoder drops the ignored bits. -/
def Instr.wellFormed : Instr → Bool
  | .step serr sample => !serr || sample == 0
  | .nop => true
  | .setcnt => true
  | .rdcnt => true
  | .rdppr => true
  | .rdrot => true
  | .rdstate => true
  | .reserved => true

end Sys2Proof
end

