-- ==== Sys2Proof/Decode.lean ====
section
/-! DEFINITION. The decoder of the 6-bit command word, the encoder, and the two words a host asks with
(30_encoding.md R51, section 3, R55). -/

namespace Sys2Proof

/-- The field `op` = `cmd[5:3]` (R51). -/
def opField (cmd : CommandWord) : BitVec 3 := cmd.extractLsb' 3 3

/-- The field `serr` = `cmd[2]` (R51). -/
def serrField (cmd : CommandWord) : Bool := cmd.getLsbD 2

/-- The field `sample` = `cmd[1:0]` (R51). -/
def sampleField (cmd : CommandWord) : Sample := cmd.extractLsb' 0 2

/-- The operation a command word selects: `cmd[5:3]` and nothing else names it (30_encoding.md section 3).
Total: every 6-bit word has a defined effect (D16).  Ignored bits are dropped (R55). -/
def decode (cmd : CommandWord) : Instr :=
  match (opField cmd).toNat with
  | 0 => .nop
  | 1 => .step (serrField cmd) (if serrField cmd then 0 else sampleField cmd)
  | 2 => .setcnt
  | 3 => .rdcnt
  | 4 => .rdppr
  | 5 => .rdrot
  | 6 => .rdstate
  | _ => .reserved

/-- The three fields of a command word put together, `op` uppermost (R51). -/
def commandWord (op : BitVec 3) (serr : Bool) (sample : Sample) : CommandWord :=
  op ++ BitVec.ofBool serr ++ sample

/-- The command word of an operation, ignored bits 0 (the canonical forms of 30_encoding.md section 3). -/
def encode : Instr → CommandWord
  | .nop => commandWord 0 false 0
  | .step serr sample => commandWord 1 serr sample
  | .setcnt => commandWord 2 false 0
  | .rdcnt => commandWord 3 false 0
  | .rdppr => commandWord 4 false 0
  | .rdrot => commandWord 5 false 0
  | .rdstate => commandWord 6 false 0
  | .reserved => commandWord 7 false 0

/-- Why a number is no command word. -/
inductive DecodeRejection where
  /-- The number has a bit above bit 5; the command port has six lines (R56).  Raised by `decodeNumber`; safe. -/
  | widerThanCommandWord
  deriving DecidableEq, Repr

/-- Decoding of a number: the port has six lines, so a number of more bits is no command word (R56). -/
def decodeNumber (w : Nat) : Except DecodeRejection Instr :=
  if w < 64 then .ok (decode (BitVec.ofNat 6 w)) else .error .widerThanCommandWord

/-- The instruction the decoder reads from the opcode table's word `w`.  The command word is one word of six
bits, so the table's bit numbering is the port's own and the row's width in whole bytes decides nothing. -/
def decodeTableWord (_nbits w : Nat) : Option Instr :=
  match decodeNumber w with
  | .ok i => some i
  | .error _ => none

end Sys2Proof
end

