-- ==== Sys2Proof/Config.lean ====
section
/-! DEFINITION. The implementation parameters of one instance (00_scope.md section 4), and the constants the
spec leaves open, which have no value a proof could use. -/

namespace Sys2Proof

/-- Parameter `ROT_FMT`: the floating-point format of the rotations value (R6). -/
inductive RotFormat where
  | binary64
  | binary32
  deriving DecidableEq, Repr

/-- The parameters of one instance, constant for its life (00_scope.md section 4).
`ppr` is an integer, because a builder may ask for any integer and R117 says which are rejected. -/
structure Config where
  /-- `CNT_W`: bits of the count (R3). -/
  cntW : Nat
  /-- `CNT_INIT`: the value the count takes at reset, in the range of `CNT_W` bits by its type (R4). -/
  cntInit : BitVec cntW
  /-- `PPR`: pulses per rotation (R5). -/
  ppr : Int
  /-- `ROT_FMT` (R6). -/
  rotFmt : RotFormat
  deriving DecidableEq, Repr

/-- `CNT_W` is one of its allowed values, 2 to 64 (R3). -/
def Config.widthAllowed (c : Config) : Bool := decide (2 ≤ c.cntW ∧ c.cntW ≤ 64)

/-- `PPR` is in the range 1 to 2^(`CNT_W`-1) - 1 (R5). -/
def Config.pprAllowed (c : Config) : Bool := decide (1 ≤ c.ppr ∧ c.ppr ≤ 2 ^ (c.cntW - 1) - 1)

/-- The parameters of which an instance exists (R3, R5, R117). -/
def Config.valid (c : Config) : Bool := c.widthAllowed && c.pprAllowed

/-- OPEN VALUE (log 2): which `PPR` the instance at reset was built with, less one.  The spec gives no default:
"every instance states its `PPR`" (R5).  Every in-range value for `CNT_W` = 32 is possible. -/
opaque Config.pprIndex : Fin 2147483647

/-- OPEN VALUE (log 10): the subscriber list after a registered subscriber registers again (N11). -/
opaque Config.registerAgain : List Nat → Nat → List Nat

/-- OPEN VALUE (log 10): the subscriber list after a stranger is unregistered (N11). -/
opaque Config.unregisterStranger : List Nat → Nat → List Nat

/-- The instance of `State.reset`: every parameter at its default, `PPR` open
(the summary table of 00_scope.md section 4). -/
def Config.default : Config :=
  { cntW := 32, cntInit := 0, ppr := (Config.pprIndex.val : Int) + 1, rotFmt := .binary64 }

end Sys2Proof
end

