-- ==== Sys2Proof/Machine/State.lean ====
section
/-! DEFINITION. QDEC's state as plain data: the two registers (10_state.md R10), the instance's constants, the
ports of a clock cycle (30_encoding.md R48, R49), and the environment's subscriber list (42_event_notifier.md R99). -/

namespace Sys2Proof.Machine

/-- The seven symbolic decoder states (R11); what each stands for is the table under R11. -/
inductive DecoderState where
  | start
  | cwBegin
  | cwNext
  | cwFinal
  | ccwBegin
  | ccwNext
  | ccwFinal
  deriving DecidableEq, Repr

/-- The direction of a step: an output of that step and no state (R18). -/
inductive Direction where
  | none
  | clockwise
  | counterClockwise
  deriving DecidableEq, Repr

/-- The exceptions an operation can raise (R115).  Each abandons its operation in a NEXT state. -/
inductive Exception where
  /-- A STEP whose sample read failed (R116). -/
  | sampleReadFailure
  /-- The reserved operation code (R118). -/
  | reservedOperation
  deriving DecidableEq, Repr

/-- The seven output ports of one step, for a count of `w` bits (R48). -/
structure Outputs (w : Nat) where
  rvalid : Bool
  rdata : ReadData
  pulse : Bool
  dir : BitVec 2
  evcount : BitVec w
  fault : Bool
  fcode : BitVec 2
  deriving DecidableEq, Repr

/-- Every output 0: what an operation that drives no output leaves (R48, R73, R137). -/
def Outputs.quiet {w : Nat} : Outputs w :=
  { rvalid := false, rdata := 0, pulse := false, dir := 0, evcount := 0, fault := false, fcode := 0 }

/-- A change of the environment's subscriber list (R99, R101).  Subscribers are named by numbers. -/
inductive SubChange where
  | register (subscriber : Nat)
  | unregister (subscriber : Nat)
  deriving DecidableEq, Repr

/-- What the outside presents in one clock cycle: the input ports (R49), and the changes of the subscriber list
that happen while the cycle's event, if any, is being delivered (R101). -/
structure Cycle (w : Nat) where
  rst : Bool
  cmd : CommandWord
  wdata : BitVec w
  wiring : List SubChange
  deriving DecidableEq, Repr

/-- The cycle in which no requester asks for anything: NOP (R49, R73; log 3). -/
def Cycle.idle {w : Nat} : Cycle w := { rst := false, cmd := 0, wdata := 0, wiring := [] }

/-- One subscriber's invocation, "passing the updated count" (R95). -/
structure Notification (w : Nat) where
  subscriber : Nat
  count : BitVec w
  deriving DecidableEq, Repr

/-- The whole state.  The architectural registers are `state` and `count` and no other (R10). -/
structure State where
  /-- The constants of the instance (R24; log 1).  No step writes them. -/
  cfg : Config
  /-- The register `state` (R11). -/
  state : DecoderState
  /-- The register `count` (R15). -/
  count : BitVec cfg.cntW
  /-- The output ports of the last step (R48; log 5).  No step reads them. -/
  out : Outputs cfg.cntW
  /-- The cycles to come, the present one first (R49; log 3). -/
  inputs : List (Cycle cfg.cntW)
  /-- Environment: the subscribers wired to the event port, in notification order (R99; log 9). -/
  subs : List Nat
  /-- Environment: the notifications of the last step, in delivery order (R95, R99; log 9). -/
  notified : List (Notification cfg.cntW)
  deriving DecidableEq, Repr

/-- Reasons a step stops the machine: none.  Every operation of QDEC completes in its step and its exceptions are
one-step reports after which "the next step is an ordinary step" (R115, R45), so no constructor exists. -/
inductive Fault where
  deriving DecidableEq, Repr

/-- Reasons the model has no machine or no meaning. -/
inductive Refusal where
  /-- An instruction without a meaning.  Every instruction has one, so nothing raises it; safe. -/
  | notModelled (mnemonic : String)
  /-- ConfigurationError: `PPR` outside its range, so no instance exists (R117).
  Raised by `State.construct` only, never by a step; safe. -/
  | configurationError
  /-- `CNT_W` outside 2 to 64, so no instance exists (R3; log 12).
  Raised by `State.construct` only, never by a step; safe. -/
  | widthNotAllowed
  deriving DecidableEq, Repr

/-- One instance right after construction and reset (R25, R135): START, `CNT_INIT`, outputs quiet (R137),
no subscriber (93_implementation_defined.md section 2), and nothing presented yet (log 4). -/
def State.ofConfig (c : Config) : State :=
  { cfg := c, state := .start, count := c.cntInit, out := Outputs.quiet, inputs := [], subs := [], notified := [] }

/-- Construction (R117): an instance, or no instance. -/
def State.construct (c : Config) : Host.Outcome State Fault Refusal :=
  if !c.widthAllowed then .refused .widthNotAllowed
  else if !c.pprAllowed then .refused .configurationError
  else .next (State.ofConfig c)

/-- The machine right after reset, every parameter at its default (00_scope.md section 4) and `PPR` open (log 2). -/
def State.reset : State := State.ofConfig Config.default

end Sys2Proof.Machine
end

