-- ==== Sys2Proof/Machine/Table.lean ====
section
/-! DEFINITION. The transition table ROM and the codes of its nibbles (40_decoder_fsm.md R60, R61; 20_memory.md R32). -/

namespace Sys2Proof.Machine

/-- The code of a state, which is its table row (R11). -/
def DecoderState.code : DecoderState → BitVec 3
  | .start => 0
  | .cwBegin => 1
  | .cwNext => 2
  | .cwFinal => 3
  | .ccwBegin => 4
  | .ccwNext => 5
  | .ccwFinal => 6

/-- The state of a code.  Code 7 is never held and no entry holds it (R13); the arm for it follows the
recommendation of U2 and is never reached (log 6). -/
def DecoderState.ofCode (c : BitVec 3) : DecoderState :=
  match c.toNat with
  | 0 => .start
  | 1 => .cwBegin
  | 2 => .cwNext
  | 3 => .cwFinal
  | 4 => .ccwBegin
  | 5 => .ccwNext
  | 6 => .ccwFinal
  | _ => .start

/-- The table memory, four bytes per row, columns 00, 01, 10, 11 (the image under R32). -/
def tableRom : List TableByte :=
  [0x00, 0x01, 0x04, 0x00,
   0x00, 0x00, 0x00, 0x02,
   0x00, 0x00, 0x03, 0x00,
   0x10, 0x00, 0x00, 0x00,
   0x00, 0x00, 0x00, 0x05,
   0x00, 0x06, 0x00, 0x00,
   0x20, 0x00, 0x00, 0x00]

/-- The table address `{s[2:0], x[1:0]}` = 4*s + x (R32, R52). -/
def tableAddress (s : DecoderState) (x : Sample) : BitVec 5 := s.code ++ x

/-- The table entry `T[s][x]` (R61).  The address is always below 28, so the default is never taken. -/
def tableEntry (s : DecoderState) (x : Sample) : TableByte := tableRom.getD (tableAddress s x).toNat 0

/-- The next-state code of an entry, bits 2 to 0 of its low nibble (R62). -/
def entryNext (e : TableByte) : DecoderState := DecoderState.ofCode (e.extractLsb' 0 3)

end Sys2Proof.Machine
end

