-- ==== Sys2Proof/Machine/Flags.lean ====
section
/-! DEFINITION. The one flag-like value of QDEC, the direction of a step; no flag is stored (10_state.md R18). -/

namespace Sys2Proof.Machine

/-- The direction code, on `dir` and in a table entry's high nibble (R18). -/
def Direction.code : Direction → BitVec 2
  | .none => 0
  | .clockwise => 1
  | .counterClockwise => 2

/-- The direction an entry's high nibble signals (R63).  Nibbles 3 to 15 occur in no entry (log 7). -/
def entryDirection (e : TableByte) : Direction :=
  match (e.extractLsb' 4 4).toNat with
  | 1 => .clockwise
  | 2 => .counterClockwise
  | _ => .none

/-- The decoder, a pure function of the state and the sample (R60). -/
def decoderStep (s : DecoderState) (x : Sample) : DecoderState × Direction :=
  (entryNext (tableEntry s x), entryDirection (tableEntry s x))

/-- The code `fcode` of an exception (R48, R115). -/
def Exception.code : Exception → BitVec 2
  | .sampleReadFailure => 1
  | .reservedOperation => 2

end Sys2Proof.Machine
end

