-- ==== Sys2Proof/Machine/Operands.lean ====
section
/-! DEFINITION. Operand and result assembly (30_encoding.md R53). -/

namespace Sys2Proof.Machine

/-- The cycle being presented: the head of the inputs, or the idle cycle when nobody presents one (R49; log 3). -/
def State.cycle (s : State) : Cycle s.cfg.cntW := s.inputs.headD Cycle.idle

/-- `wdata` of the present cycle, taken as it stands (R53). -/
def State.wdata (s : State) : BitVec s.cfg.cntW := s.cycle.wdata

/-- `sext_64(count)`: how a count reaches `rdata` (R53). -/
def countData {w : Nat} (c : BitVec w) : ReadData := c.signExtend 64

/-- `zext_64(PPR)`: how the constant reaches `rdata` (R53). -/
def pprData (ppr : Int) : ReadData := BitVec.ofNat 64 ppr.toNat

/-- `zext_64(state)`: how the decoder state reaches `rdata` (R53). -/
def stateData (s : DecoderState) : ReadData := s.code.setWidth 64

end Sys2Proof.Machine
end

