-- ==== Sys2Proof/Machine/Ops.lean ====
section
/-! DEFINITION. The named operations over registers and ports, taking an exception, the event, and the reset.
There is no return from an exception, because nothing is entered (60_exceptions.md R124). -/

namespace Sys2Proof.Machine

/-- Drive the output ports of a step that emits no event; nobody is notified (R48, R96). -/
def State.drive (s : State) (o : Outputs s.cfg.cntW) : State := { s with out := o, notified := [] }

/-- Return a value: `rvalid` = 1 and the value on `rdata`, every other output 0 (R48). -/
def State.returnValue (s : State) (v : ReadData) : State :=
  s.drive { Outputs.quiet with rvalid := true, rdata := v }

/-- Take an exception: the operation is abandoned, no register is written, `fault` = 1 and `fcode` names it
(R115, R123). -/
def State.raiseException (s : State) (e : Exception) : State :=
  s.drive { Outputs.quiet with fault := true, fcode := e.code }

/-- Write the register `state` (R12). -/
def State.writeState (s : State) (d : DecoderState) : State := { s with state := d }

/-- Write the register `count` (R16). -/
def State.writeCount (s : State) (c : BitVec s.cfg.cntW) : State := { s with count := c }

/-- `applyDirection`: nothing, +1 or -1, wrapping at `CNT_W` bits (R80, R81). -/
def State.applyDirection (s : State) : Direction → State
  | .none => s
  | .clockwise => s.writeCount (s.count + 1)
  | .counterClockwise => s.writeCount (s.count - 1)

/-- The outputs of a step that emits `Pulse(d, c)` (R48, R95). -/
def pulseOutputs {w : Nat} (d : Direction) (c : BitVec w) : Outputs w :=
  { (Outputs.quiet : Outputs w) with pulse := true, dir := d.code, evcount := c }

/-- `emit Pulse(d, count)`: the event carries the count as it stands (R95), and every subscriber of the list as it
stands is notified in list order (R99, R101). -/
def State.emitPulse (s : State) (d : Direction) : State :=
  { s with
    out := pulseOutputs d s.count
    notified := s.subs.map fun k => { subscriber := k, count := s.count } }

/-- The event part of a STEP: no event for None, else one (R95, R96). -/
def State.signalDirection (s : State) : Direction → State
  | .none => s.drive Outputs.quiet
  | .clockwise => s.emitPulse .clockwise
  | .counterClockwise => s.emitPulse .counterClockwise

/-- Reset while running: START, `CNT_INIT`, every output 0; the constants stay (R135, R137), and the environment's
subscribers are not the block's to drop (R24). -/
def State.resetInstance (s : State) : State :=
  { s with state := .start, count := s.cfg.cntInit, out := Outputs.quiet, notified := [] }

/-- One change of the subscriber list: insertion order is notification order (R99); the two cases the document
does not describe are open (N11; log 10).  DESIGN CHOICE (log 20): of a subscriber that stands in the list more than
once, unregistering removes the first entry and keeps the others. -/
def SubChange.apply (subs : List Nat) : SubChange → List Nat
  | .register k => if k ∈ subs then Config.registerAgain subs k else subs ++ [k]
  | .unregister k => if k ∈ subs then subs.erase k else Config.unregisterStranger subs k

/-- The end of a cycle: its changes of the subscriber list take effect, for later events only (R101), and the next
cycle is presented. -/
def State.advance (s : State) : State :=
  { s with subs := s.cycle.wiring.foldl SubChange.apply s.subs, inputs := s.inputs.tail }

/-- Present one cycle before all others. -/
def State.present (s : State) (c : Cycle s.cfg.cntW) : State := { s with inputs := c :: s.inputs }

/-- The cycle that presents a command word, with the operand port at 0 (`withFetchWord`; log 4). -/
def commandCycle {w : Nat} (cmd : CommandWord) : Cycle w := { Cycle.idle with cmd := cmd }

end Sys2Proof.Machine
end

