-- ==== Sys2Proof/Machine/Counter.lean ====
section
/-! DEFINITION. The counter family: SETCNT, RDCNT, RDPPR (41_counter_rotation.md). -/

namespace Sys2Proof.Machine

/-- SETCNT: `count <- wdata`, the state untouched, no event, outputs all 0 (R83). -/
def execSetcnt (s : State) : Host.Outcome State Fault Refusal :=
  .next { s with count := s.wdata, out := Outputs.quiet, notified := [] }

/-- RDCNT: `rdata` is the sign-extended count (R84). -/
def execRdcnt (s : State) : Host.Outcome State Fault Refusal := .next (s.returnValue (countData s.count))

/-- RDPPR: `rdata` is the zero-extended constant (R85). -/
def execRdppr (s : State) : Host.Outcome State Fault Refusal := .next (s.returnValue (pprData s.cfg.ppr))

end Sys2Proof.Machine
end

