-- ==== Sys2Proof/Machine/Decoder.lean ====
section
/-! DEFINITION. The decoder family: NOP, STEP, RDSTATE (40_decoder_fsm.md), and the reserved code (30_encoding.md R54). -/

namespace Sys2Proof.Machine

/-- NOP: no register changes, all outputs 0 (R73). -/
def execNop (s : State) : Host.Outcome State Fault Refusal := .next (s.drive Outputs.quiet)

/-- The part of STEP after a successful read: write the state, apply the direction, signal it, in the document's
order (R62). -/
def decodeAndUpdate (s : State) (x : Sample) : State :=
  let (next, d) := decoderStep s.state x
  ((s.writeState next).applyDirection d).signalDirection d

/-- STEP: SampleReadFailure when the read failed, and then nothing else happens; else one decode and update (R62). -/
def execStep (serr : Bool) (sample : Sample) (s : State) : Host.Outcome State Fault Refusal :=
  if serr then .next (s.raiseException .sampleReadFailure) else .next (decodeAndUpdate s sample)

/-- RDSTATE: `rdata` is the code of the state (R74). -/
def execRdstate (s : State) : Host.Outcome State Fault Refusal := .next (s.returnValue (stateData s.state))

/-- The reserved code raises ReservedOperation, always (R54, R118). -/
def execReserved (s : State) : Host.Outcome State Fault Refusal := .next (s.raiseException .reservedOperation)

end Sys2Proof.Machine
end

