-- ==== Sys2Proof/Machine/Rotations.lean ====
section
/-! DEFINITION. The rotations divider: `rot` (41_counter_rotation.md R88) and RDROT (R87). -/

namespace Sys2Proof.Machine

/-- Width of the fraction field: 52 or 23 (R53, G2). -/
def fractionBits : RotFormat → Nat
  | .binary64 => 52
  | .binary32 => 23

/-- Width of the exponent field: 11 or 8 (R53, G2). -/
def exponentBits : RotFormat → Nat
  | .binary64 => 11
  | .binary32 => 8

/-- Bias of the exponent field: 1023 or 127 (G2). -/
def exponentBias : RotFormat → Nat
  | .binary64 => 1023
  | .binary32 => 127

/-- Bits kept below the binary point of the quotient; enough that a quotient of at least 2^-63 (R91) has more
than 53 significant bits. -/
def quotientShift : Nat := 128

/-- Round to nearest, ties to even: `m` significand units, then `rest` of `2^drop` of a unit, then a nonzero tail
below that when `tail`. -/
def roundUnits (m rest drop : Nat) (tail : Bool) : Nat :=
  let half := 2 ^ (drop - 1)
  if half < rest ∨ (rest = half ∧ (tail = true ∨ m % 2 = 1)) then m + 1 else m

/-- Exponent and fraction fields, as one number, of `a / p` rounded once to nearest, ties to even, for positive `a`
and `p` (R88).  A significand that rounds up to the next power of two carries into the exponent field. -/
def rotMagnitude (f : RotFormat) (a p : Nat) : Nat :=
  let scaled := a * 2 ^ quotientShift
  let q := scaled / p
  let drop := Nat.log2 q - fractionBits f
  let units := roundUnits (q / 2 ^ drop) (q % 2 ^ drop) drop (scaled % p != 0)
  (Nat.log2 q + exponentBias f - quotientShift - 1) * 2 ^ fractionBits f + units

/-- The bits of `rot(c, p)`, zero-extended to the width of `rdata` (R53, R88): sign above exponent above fraction;
positive zero for `c` = 0. -/
def rot (f : RotFormat) (c : Int) (p : Nat) : ReadData :=
  if c = 0 then 0
  else
    let sign := if c < 0 then 2 ^ (exponentBits f + fractionBits f) else 0
    BitVec.ofNat 64 (sign + rotMagnitude f c.natAbs p)

/-- RDROT: `rdata` is the rotations value of this moment; nothing is written and nothing is kept (R87). -/
def execRdrot (s : State) : Host.Outcome State Fault Refusal :=
  .next (s.returnValue (rot s.cfg.rotFmt s.count.toInt s.cfg.ppr.toNat))

end Sys2Proof.Machine
end

