-- ==== Sys2Proof/Machine/Dispatch.lean ====
section
/-! DEFINITION. One arm per constructor of Instr. -/

namespace Sys2Proof.Machine

def exec (i : Instr) (s : State) : Host.Outcome State Fault Refusal :=
  match i with
  | .nop => Sys2Proof.Machine.execNop s
  | .step serr sample => Sys2Proof.Machine.execStep serr sample s
  | .setcnt => Sys2Proof.Machine.execSetcnt s
  | .rdcnt => Sys2Proof.Machine.execRdcnt s
  | .rdppr => Sys2Proof.Machine.execRdppr s
  | .rdrot => Sys2Proof.Machine.execRdrot s
  | .rdstate => Sys2Proof.Machine.execRdstate s
  | .reserved => Sys2Proof.Machine.execReserved s

end Sys2Proof.Machine
end

