-- ==== Sys2Proof/Machine/Step.lean ====
section
/-! DEFINITION. One step is one clock cycle: reset, or the operation on the command port (30_encoding.md R59,
60_exceptions.md R122). -/

namespace Sys2Proof.Machine

/-- One step: with `rst` = 1 the reset is done and `cmd` ignored; otherwise the operation `cmd` selects is executed;
then the next cycle is presented (R59, R122). -/
def step (s : State) : Host.Outcome State Fault Refusal :=
  if s.cycle.rst then .next s.resetInstance.advance
  else
    match exec (decode s.cycle.cmd) s with
    | .next t => .next t.advance
    | .fault r => .fault r
    | .refused r => .refused r

/-- `s` with the command word `w` presented in the very next cycle, before all others (log 4). -/
def State.withFetchWord (s : State) (_nbits w : Nat) : State := s.present (commandCycle (BitVec.ofNat 6 w))

end Sys2Proof.Machine
end

