-- ==== Sys2Proof/Machine/Assembler.lean ====
section
/-! DEFINITION. The textual form of operations and the pseudo-operations (30_encoding.md R57, R58; log 19). -/

namespace Sys2Proof.Machine

/-- What one line of text puts on the ports in one cycle. -/
structure Command (w : Nat) where
  cmd : CommandWord
  wdata : BitVec w
  deriving DecidableEq, Repr

/-- Why a line is no operation. -/
inductive AsmError where
  /-- Not one of the forms of R57 and R58. -/
  | unknownForm
  /-- Not a signed decimal integer and not a `0x` pattern. -/
  | badNumber
  /-- A decimal outside the range of `CNT_W` bits, or a pattern of more than `CNT_W` bits. -/
  | numberOutOfRange
  deriving DecidableEq, Repr

/-- The value of a digit in the base, if it is one. -/
def digitValue (base : Nat) (c : Char) : Option Nat :=
  let n := c.toNat
  let v := if 48 ≤ n ∧ n ≤ 57 then some (n - 48)
    else if 65 ≤ n ∧ n ≤ 70 then some (n - 55)
    else if 97 ≤ n ∧ n ≤ 102 then some (n - 87)
    else none
  v.filter (· < base)

/-- Digits read after the number `acc`. -/
def digitsFrom (base : Nat) : Nat → List Char → Option Nat
  | acc, [] => some acc
  | acc, c :: cs => (digitValue base c).bind fun d => digitsFrom base (acc * base + d) cs

/-- A number of at least one digit. -/
def readDigits (base : Nat) (cs : List Char) : Except AsmError Nat :=
  match cs, digitsFrom base 0 cs with
  | _ :: _, some n => .ok n
  | _, _ => .error .badNumber

/-- A signed decimal that fits `w` bits. -/
def fitDecimal (w : Nat) (n : Int) : Except AsmError (BitVec w) :=
  if (BitVec.ofInt w n).toInt = n then .ok (BitVec.ofInt w n) else .error .numberOutOfRange

/-- The operand of SETCNT: a signed decimal integer or a `0x` pattern of `CNT_W` bits (R57). -/
def readOperand (w : Nat) : List Char → Except AsmError (BitVec w)
  | '0' :: 'x' :: cs => do
    let n ← readDigits 16 cs
    if n < 2 ^ w then .ok (BitVec.ofNat w n) else .error .numberOutOfRange
  | '-' :: cs => do fitDecimal w (-(← readDigits 10 cs : Nat))
  | cs => do fitDecimal w (← readDigits 10 cs : Nat)

/-- A level digit of `STEP ba`. -/
def readLevel : Char → Option (BitVec 1)
  | '0' => some 0
  | '1' => some 1
  | _ => none

/-- The command of an operation, with an operand on `wdata`. -/
def commandOf {w : Nat} (i : Instr) (wdata : BitVec w := 0) : Command w := { cmd := encode i, wdata := wdata }

/-- The samples of the pseudo-operations FWD, REV, CW4 and CCW4 (R58). -/
def samplesFwd : List Sample := [0, 1, 3, 2, 0]
def samplesRev : List Sample := [0, 2, 3, 1, 0]
def samplesCw4 : List Sample := [1, 3, 2, 0]
def samplesCcw4 : List Sample := [2, 3, 1, 0]

/-- Good STEPs, one for each sample. -/
def stepCommands {w : Nat} (xs : List Sample) : List (Command w) := xs.map fun x => commandOf (.step false x)

/-- The words of a line: split at blanks, up to a `;` which starts a comment (R57). -/
def lineWords : List Char → List Char → List (List Char)
  | word, [] => if word.isEmpty then [] else [word]
  | word, c :: cs =>
    if c = ';' then (if word.isEmpty then [] else [word])
    else if c = ' ' ∨ c = '\t' then (if word.isEmpty then [] else [word]) ++ lineWords [] cs
    else lineWords (word ++ [c]) cs

/-- One word: an operation without operand (R57) or a pseudo-operation, expanded (R58). -/
def assembleWord {w : Nat} (m : List Char) : Except AsmError (List (Command w)) :=
  if m = "NOP".toList then .ok [commandOf .nop]
  else if m = "RDCNT".toList then .ok [commandOf .rdcnt]
  else if m = "RDPPR".toList then .ok [commandOf .rdppr]
  else if m = "RDROT".toList then .ok [commandOf .rdrot]
  else if m = "RDSTATE".toList then .ok [commandOf .rdstate]
  else if m = "ZERO".toList then .ok [commandOf .setcnt]
  else if m = "FWD".toList then .ok (stepCommands samplesFwd)
  else if m = "REV".toList then .ok (stepCommands samplesRev)
  else if m = "CW4".toList then .ok (stepCommands samplesCw4)
  else if m = "CCW4".toList then .ok (stepCommands samplesCcw4)
  else .error .unknownForm

/-- Two words: STEP with its sample, B before A, or `fail`; SETCNT with its number (R57). -/
def assemblePair {w : Nat} (m operand : List Char) : Except AsmError (List (Command w)) :=
  if m = "STEP".toList then
    if operand = "fail".toList then .ok [commandOf (.step true 0)]
    else match operand with
      | [b, a] =>
        match readLevel b, readLevel a with
        | some b, some a => .ok (stepCommands [b ++ a])
        | _, _ => .error .unknownForm
      | _ => .error .unknownForm
  else if m = "SETCNT".toList then do
    let n ← readOperand w operand
    .ok [commandOf .setcnt n]
  else .error .unknownForm

/-- One line of text: at most one operation (R57). -/
def assembleLine (w : Nat) (line : List Char) : Except AsmError (List (Command w)) :=
  match lineWords [] line with
  | [] => .ok []
  | [m] => assembleWord m
  | [m, operand] => assemblePair m operand
  | _ => .error .unknownForm

/-- Lines of text, in order. -/
def assemble (w : Nat) : List (List Char) → Except AsmError (List (Command w))
  | [] => .ok []
  | l :: ls => do .ok ((← assembleLine w l) ++ (← assemble w ls))

/-- The cycle that presents a command. -/
def Command.cycle {w : Nat} (c : Command w) : Cycle w :=
  { rst := false, cmd := c.cmd, wdata := c.wdata, wiring := [] }

end Sys2Proof.Machine
end

