-- ==== Sys2Proof/Safety.lean ====
section
/-! DEFINITION. What claims are stated with: the invariant of the ports, runs over presented commands, the history
of events, and the number a floating-point word stands for. -/

namespace Sys2Proof.Machine

/-- The output ports are as R48 allows: an output that carries nothing is 0, `dir` and `fcode` are never 3, and at
most one thing happened in the step (R122). -/
abbrev Outputs.wellFormed {w : Nat} (o : Outputs w) : Prop :=
  (o.rvalid = false → o.rdata = 0) ∧
  (o.pulse = false → o.dir = 0 ∧ o.evcount = 0) ∧
  (o.pulse = true → o.dir = 1 ∨ o.dir = 2) ∧
  (o.fault = false → o.fcode = 0) ∧
  (o.fault = true → o.fcode = 1 ∨ o.fcode = 2) ∧
  ¬(o.pulse = true ∧ o.fault = true) ∧ ¬(o.pulse = true ∧ o.rvalid = true) ∧ ¬(o.fault = true ∧ o.rvalid = true)

/-- The invariant of a QDEC instance and its event port: the parameters are those of an instance (R3, R5); the outputs
are well formed (R48); after a pulse the state is START (R67) and the event carries the count (R97); and each
notification carries the event's count, none being made without an event (R95, R96). -/
abbrev State.Inv (s : State) : Prop :=
  s.cfg.valid = true ∧ s.out.wellFormed ∧
  (s.out.pulse = true → s.state = .start ∧ s.out.evcount = s.count) ∧
  (s.out.pulse = false → s.notified = []) ∧
  (∀ n ∈ s.notified, n.count = s.out.evcount)

/-- The next cycles present these operations, in this order, without a reset. -/
abbrev State.presents (s : State) (ops : List Instr) : Prop :=
  (s.inputs.take ops.length).map (fun c => (c.rst, decode c.cmd)) = ops.map (fun i => (false, i))

/-- No reset in the next `k` cycles. -/
abbrev State.noReset (s : State) (k : Nat) : Prop := ∀ c ∈ s.inputs.take k, c.rst = false

/-- No SETCNT in the next `k` cycles. -/
abbrev State.noSetcnt (s : State) (k : Nat) : Prop := ∀ c ∈ s.inputs.take k, decode c.cmd ≠ .setcnt

/-- The sample of the cycle, when it runs a STEP that is not abandoned.  In a reset cycle the command is ignored,
so nothing runs (R122, R135). -/
def Cycle.sample? {w : Nat} (c : Cycle w) : Option Sample :=
  if c.rst then none
  else
    match decode c.cmd with
    | .step false x => some x
    | _ => none

/-- The samples of the STEPs that are not abandoned, in the order presented (R70). -/
def samplesOf {w : Nat} (cs : List (Cycle w)) : List Sample := cs.filterMap Cycle.sample?

/-- Good STEPs with these samples. -/
def goodSteps (xs : List Sample) : List Instr := xs.map fun x => .step false x

/-- The state the decoder reaches from `s` over samples (R60, R62). -/
def decoderRun (s : DecoderState) (xs : List Sample) : DecoderState :=
  xs.foldl (fun t x => (decoderStep t x).1) s

/-- The event of the last step, if it emitted one: its `dir` and the count it carries as an integer. -/
def State.event (s : State) : Option (BitVec 2 × Int) :=
  if s.out.pulse then some (s.out.dir, s.out.evcount.toInt) else none

/-- The events of the next `k` steps, oldest first. -/
def eventsOf : Nat → State → List (BitVec 2 × Int)
  | 0, _ => []
  | k + 1, s =>
    match step s with
    | .next t => t.event.toList ++ eventsOf k t
    | .fault _ => []
    | .refused _ => []

/-- The present cycle is a STEP that is not abandoned and whose table entry has a non-zero high nibble (R97). -/
def State.validatesNow (s : State) : Bool :=
  !s.cycle.rst &&
    match decode s.cycle.cmd with
    | .step false x => (tableEntry s.state x).extractLsb' 4 4 != 0
    | _ => false

/-- How many of the next `k` steps are such STEPs. -/
def validatedSteps : Nat → State → Nat
  | 0, _ => 0
  | k + 1, s =>
    (if s.validatesNow then 1 else 0) +
      match step s with
      | .next t => validatedSteps k t
      | .fault _ => 0
      | .refused _ => 0

/-- How many events of a history have direction code `d`. -/
def countDir (d : BitVec 2) (es : List (BitVec 2 × Int)) : Nat := es.countP fun e => e.1 == d

/-- The word is a finite number of the format, with nothing above its sign bit (G2). -/
abbrev isFinite (f : RotFormat) (b : ReadData) : Prop :=
  b.toNat < 2 ^ (exponentBits f + fractionBits f + 1) ∧
  b.toNat / 2 ^ fractionBits f % 2 ^ exponentBits f ≠ 2 ^ exponentBits f - 1

/-- The rational number a finite word stands for, subnormals included (G2). -/
def floatValue (f : RotFormat) (b : ReadData) : ℚ :=
  let fraction := b.toNat % 2 ^ fractionBits f
  let exponent := b.toNat / 2 ^ fractionBits f % 2 ^ exponentBits f
  let sign : ℚ := if b.toNat / 2 ^ (exponentBits f + fractionBits f) % 2 = 1 then -1 else 1
  if exponent = 0 then sign * fraction * 2 ^ (1 - exponentBias f - fractionBits f : ℤ)
  else sign * (2 ^ fractionBits f + fraction) * 2 ^ (exponent - exponentBias f - fractionBits f : ℤ)

end Sys2Proof.Machine
end

