-- ==== Sys2Proof/Certificates/Slice0/Obligations.lean ====
section
/-! DEFINITION. The statements about QDEC.  Each docstring names the rule of spec/ it formalises. -/

section
open Sys2Proof Sys2Proof.Machine

/-! Operations: the encoding of each and the whole next state. -/

/-- R73. -/
def Obligations.NopDoesNothing : Prop :=
  (∀ w : CommandWord, w.extractLsb' 3 3 = 0 → decode w = .nop) ∧ encode .nop = 0x00 ∧
  ∀ s : State, exec .nop s = .next { s with out := Outputs.quiet, notified := [] }

/-- R62: the pseudocode line by line, the table entry `e` giving the next state and the direction. -/
def Obligations.StepFollowsTable : Prop :=
  (∀ w : CommandWord, w.extractLsb' 3 3 = 1 →
    decode w = if w.getLsbD 2 then .step true 0 else .step false (w.extractLsb' 0 2)) ∧
  ∀ (s : State) (x : Sample),
    exec (.step true x) s =
      .next { s with out := { Outputs.quiet with fault := true, fcode := 1 }, notified := [] } ∧
    let e := tableEntry s.state x
    let s1 := { s with state := DecoderState.ofCode (e.extractLsb' 0 3) }
    (e.extractLsb' 4 4 = 0 →
      exec (.step false x) s = .next { s1 with out := Outputs.quiet, notified := [] }) ∧
    (e.extractLsb' 4 4 = 1 → exec (.step false x) s = .next { s1 with
      count := s.count + 1
      out := { (Outputs.quiet : Outputs s.cfg.cntW) with pulse := true, dir := 1, evcount := s.count + 1 }
      notified := s.subs.map fun k => { subscriber := k, count := s.count + 1 } }) ∧
    (e.extractLsb' 4 4 = 2 → exec (.step false x) s = .next { s1 with
      count := s.count - 1
      out := { (Outputs.quiet : Outputs s.cfg.cntW) with pulse := true, dir := 2, evcount := s.count - 1 }
      notified := s.subs.map fun k => { subscriber := k, count := s.count - 1 } }) ∧
    (e.extractLsb' 4 4 = 0 ∨ e.extractLsb' 4 4 = 1 ∨ e.extractLsb' 4 4 = 2)

/-- R74. -/
def Obligations.RdstateReturnsCode : Prop :=
  (∀ w : CommandWord, w.extractLsb' 3 3 = 6 → decode w = .rdstate) ∧ encode .rdstate = 0x30 ∧
  ∀ s : State, exec .rdstate s = .next { s with
      out := { Outputs.quiet with rvalid := true, rdata := s.state.code.setWidth 64 }, notified := [] } ∧
    (s.state.code.setWidth 64).toNat ≤ 6

/-- R83. -/
def Obligations.SetcntLoadsCount : Prop :=
  (∀ w : CommandWord, w.extractLsb' 3 3 = 2 → decode w = .setcnt) ∧ encode .setcnt = 0x10 ∧
  ∀ s : State, exec .setcnt s =
    .next { s with count := s.cycle.wdata, out := Outputs.quiet, notified := [] }

/-- R84; at every allowed width the value read is the count as an integer. -/
def Obligations.RdcntReturnsCount : Prop :=
  (∀ w : CommandWord, w.extractLsb' 3 3 = 3 → decode w = .rdcnt) ∧ encode .rdcnt = 0x18 ∧
  ∀ s : State, exec .rdcnt s = .next { s with
      out := { Outputs.quiet with rvalid := true, rdata := s.count.signExtend 64 }, notified := [] } ∧
    (s.cfg.cntW ≤ 64 → (s.count.signExtend 64).toInt = s.count.toInt)

/-- R85: the constant, zero-extended; in an instance it is `PPR` itself and never 0. -/
def Obligations.RdpprReturnsConstant : Prop :=
  (∀ w : CommandWord, w.extractLsb' 3 3 = 4 → decode w = .rdppr) ∧ encode .rdppr = 0x20 ∧
  ∀ s : State, ∃ v : ReadData, exec .rdppr s = .next { s with
      out := { Outputs.quiet with rvalid := true, rdata := v }, notified := [] } ∧
    (s.cfg.valid = true → (v.toNat : Int) = s.cfg.ppr ∧ v ≠ 0)

/-- R87: the rotations value of this count and `PPR`, sign as the count's, positive zero at 0. -/
def Obligations.RdrotReturnsRotations : Prop :=
  (∀ w : CommandWord, w.extractLsb' 3 3 = 5 → decode w = .rdrot) ∧ encode .rdrot = 0x28 ∧
  (∀ s : State, exec .rdrot s = .next { s with
      out := { Outputs.quiet with
        rvalid := true, rdata := rot s.cfg.rotFmt s.count.toInt s.cfg.ppr.toNat }, notified := [] } ∧
    (s.count = 0 → rot s.cfg.rotFmt s.count.toInt s.cfg.ppr.toNat = 0) ∧
    (s.cfg.valid = true →
      (0 < floatValue s.cfg.rotFmt (rot s.cfg.rotFmt s.count.toInt s.cfg.ppr.toNat) ↔ 0 < s.count.toInt) ∧
      (floatValue s.cfg.rotFmt (rot s.cfg.rotFmt s.count.toInt s.cfg.ppr.toNat) < 0 ↔ s.count.toInt < 0))) ∧
  rot .binary64 100 20 = 0x4014000000000000

/-- R54, R118: all eight words of code 7, and no other operation, raise it. -/
def Obligations.ReservedCodeRaises : Prop :=
  (∀ w : CommandWord, decode w = .reserved ↔ 0x38 ≤ w.toNat) ∧
  (∀ s : State, exec .reserved s =
    .next { s with out := { Outputs.quiet with fault := true, fcode := 2 }, notified := [] }) ∧
  ∀ (i : Instr) (s t : State), exec i s = .next t → t.out.fcode = 2 → i = .reserved

/-- R116: a STEP with `serr` = 1 raises it whatever its sample bits, and nothing else does. -/
def Obligations.FailedReadRaises : Prop :=
  (∀ w : CommandWord, 0x0C ≤ w.toNat → w.toNat ≤ 0x0F → ∃ x, decode w = .step true x) ∧
  (∀ (s : State) (x : Sample), exec (.step true x) s =
    .next { s with out := { Outputs.quiet with fault := true, fcode := 1 }, notified := [] }) ∧
  ∀ (i : Instr) (s t : State), exec i s = .next t → t.out.fcode = 1 → ∃ x, i = .step true x

/-- R115, R123: the whole effect of an exception is the report of that step. -/
def Obligations.ExceptionOnlyReports : Prop :=
  ∀ (i : Instr) (s t : State), exec i s = .next t →
    (t.out.fault = true ↔ i = .reserved ∨ ∃ x, i = .step true x) ∧
    (t.out.fault = true →
      t = { s with out := { Outputs.quiet with fault := true, fcode := t.out.fcode }, notified := [] } ∧
      (t.out.fcode = 1 ∨ t.out.fcode = 2))

/-! The step: reset, priority, what runs. -/

/-- R122: reset first, whatever the command, then the reserved code, then the failed read, each of which reports a
fault and does nothing else, then the operation, which raises nothing. -/
def Obligations.OneThingPerStep : Prop :=
  ∀ s : State, ∃ t, step s = .next t ∧
    (s.cycle.rst = true → t.state = .start ∧ t.count.toInt = s.cfg.cntInit.toInt ∧
      t.out.fault = false ∧ t.out.pulse = false ∧ t.out.rvalid = false) ∧
    (s.cycle.rst = false → s.cycle.cmd.extractLsb' 3 3 = 7 → t.out.fault = true ∧ t.out.fcode = 2 ∧
      t.out.rvalid = false ∧ t.out.pulse = false ∧ t.state = s.state ∧ t.count.toInt = s.count.toInt) ∧
    (s.cycle.rst = false → s.cycle.cmd.extractLsb' 3 3 = 1 → s.cycle.cmd.getLsbD 2 = true →
      t.out.fault = true ∧ t.out.fcode = 1 ∧
      t.out.rvalid = false ∧ t.out.pulse = false ∧ t.state = s.state ∧ t.count.toInt = s.count.toInt) ∧
    (s.cycle.rst = false → s.cycle.cmd.extractLsb' 3 3 ≠ 7 →
      (s.cycle.cmd.extractLsb' 3 3 = 1 → s.cycle.cmd.getLsbD 2 = false) →
      t.out.fault = false ∧ ∃ u, exec (decode s.cycle.cmd) s = .next u ∧ t = u.advance) ∧
    ¬(t.out.pulse = true ∧ t.out.fault = true)

/-- The whole next state of a reset step, whatever the command (section 1 of 70_reset_and_hazards.md: R135, R137).
The clauses on `subs` and `inputs` are the model's choice: a reset cycle brings changes of the subscriber list too
(log 18), reset keeps the list (log 9), and each step consumes one cycle of the list of cycles (log 3). -/
def Obligations.ResetStepRestores : Prop :=
  ∀ s : State, s.cycle.rst = true → step s = .next { s with
    state := .start, count := s.cfg.cntInit, out := Outputs.quiet, notified := []
    subs := s.cycle.wiring.foldl SubChange.apply s.subs, inputs := s.inputs.tail }

/-- R136: the step after reset depends on nothing that was in the registers or on the ports before. -/
def Obligations.NothingSurvivesReset : Prop :=
  ∀ (s : State) (d : DecoderState) (c : BitVec s.cfg.cntW) (o : Outputs s.cfg.cntW)
    (n : List (Notification s.cfg.cntW)), s.cycle.rst = true →
    step { s with state := d, count := c, out := o, notified := n } = step s

/-- R25: the values after reset, for every configuration, and for the default one, whose `PPR` is open (log 2). -/
def Obligations.ResetValues : Prop :=
  (∀ c : Config, (State.ofConfig c).state = .start ∧ (State.ofConfig c).count = c.cntInit ∧
    (State.ofConfig c).cfg = c ∧ (State.ofConfig c).out = Outputs.quiet) ∧
  State.reset.state = .start ∧ State.reset.count.toInt = 0 ∧ State.reset.cfg.cntW = 32 ∧
  State.reset.cfg.rotFmt = .binary64

/-- R117, R5: at an allowed width an instance exists exactly when `PPR` is in its range. -/
def Obligations.ConstructionChecksPpr : Prop :=
  ∀ c : Config, 2 ≤ c.cntW → c.cntW ≤ 64 →
    (1 ≤ c.ppr ∧ c.ppr ≤ 2 ^ (c.cntW - 1) - 1 → State.construct c = .next (State.ofConfig c)) ∧
    (¬(1 ≤ c.ppr ∧ c.ppr ≤ 2 ^ (c.cntW - 1) - 1) → State.construct c = .refused .configurationError)

/-- A step without reset is `exec` of the decoded command, then the cycle's end (section 8 of 30_encoding.md).
The list of cycles and the subscriber list are the model's (log 3, log 9). -/
def Obligations.StepRunsDecoded : Prop :=
  ∀ s : State, s.cycle.rst = false →
    (decode s.cycle.cmd).wellFormed = true ∧
    ∃ t, exec (decode s.cycle.cmd) s = .next t ∧ step s = .next { t with
      subs := t.cycle.wiring.foldl SubChange.apply t.subs, inputs := t.inputs.tail }

/-- No step stops the machine: every operation completes in its own step (section 9 of 20_memory.md).  That exceptions
are next states is log 11. -/
def Obligations.EveryStepCompletes : Prop := ∀ s : State, ∃ t, step s = .next t

/-! Encoding. -/

/-- Words of section 3 of 30_encoding.md, one or more for each operation. -/
def Obligations.SpecWordsDecode : Prop :=
  decode 0b000000 = .nop ∧ decode 0b000111 = .nop ∧ decode 0b001001 = .step false 1 ∧
  decode 0b001010 = .step false 2 ∧ decode 0b001100 = .step true 0 ∧ decode 0b010000 = .setcnt ∧
  decode 0b011000 = .rdcnt ∧ decode 0b100000 = .rdppr ∧ decode 0b101000 = .rdrot ∧
  decode 0b110000 = .rdstate ∧ decode 0b111000 = .reserved

/-- Decode and encode agree on every well-formed instruction, every word decodes to one, and the canonical word of
a decoded instruction keeps every bit that is not ignored. -/
def Obligations.DecodeEncodeAgree : Prop :=
  (∀ i : Instr, i.wellFormed = true → decode (encode i) = i) ∧
  (∀ w : CommandWord, (decode w).wellFormed = true ∧ encode (decode w) =
    if w.extractLsb' 3 3 = 1 then (if w.getLsbD 2 then 0x0C else w) else w &&& 0x38)

/-- R55: cycles that differ in ignored bits only have the same effect; canonical forms have those bits 0. -/
def Obligations.IgnoredBitsDoNotMatter : Prop :=
  (∀ i : Instr, (∀ serr x, i ≠ .step serr x) → encode i &&& 0x07 = 0) ∧ encode (.step true 0) &&& 0x03 = 0 ∧
  ∀ (s : State) (c d : Cycle s.cfg.cntW) (r : List (Cycle s.cfg.cntW)),
    c.rst = d.rst → c.wiring = d.wiring → c.cmd.extractLsb' 3 3 = d.cmd.extractLsb' 3 3 →
    (c.cmd.extractLsb' 3 3 = 1 → c.cmd.getLsbD 2 = d.cmd.getLsbD 2 ∧
      (c.cmd.getLsbD 2 = false → c.cmd.extractLsb' 0 2 = d.cmd.extractLsb' 0 2)) →
    (c.cmd.extractLsb' 3 3 = 2 → c.wdata = d.wdata) →
    step { s with inputs := c :: r } = step { s with inputs := d :: r }

/-- The pseudo-operations as commands, at every width (section 7 of 30_encoding.md: R57, R58).  That `wdata` is 0 beside
the STEP commands is the model's choice (log 19). -/
def Obligations.PseudoOperationsExpand : Prop :=
  ∀ w : Nat,
    assembleLine w "ZERO".toList = .ok [{ cmd := 0x10, wdata := 0 }] ∧
    assembleLine w "FWD".toList =
      .ok ([0x08, 0x09, 0x0B, 0x0A, 0x08].map fun c => { cmd := c, wdata := 0 }) ∧
    assembleLine w "REV".toList =
      .ok ([0x08, 0x0A, 0x0B, 0x09, 0x08].map fun c => { cmd := c, wdata := 0 }) ∧
    assembleLine w "CW4".toList =
      .ok ([0x09, 0x0B, 0x0A, 0x08].map fun c => { cmd := c, wdata := 0 }) ∧
    assembleLine w "CCW4".toList =
      .ok ([0x0A, 0x0B, 0x09, 0x08].map fun c => { cmd := c, wdata := 0 })

/-! The table. -/

/-- R61, with the state codes of R11: the flat list of the 28 bytes, row by row, column 00 first. -/
def Obligations.TableListing : Prop :=
  [DecoderState.start, .cwBegin, .cwNext, .cwFinal, .ccwBegin, .ccwNext, .ccwFinal].map DecoderState.code =
    [0, 1, 2, 3, 4, 5, 6] ∧
  ([DecoderState.start, .cwBegin, .cwNext, .cwFinal, .ccwBegin, .ccwNext, .ccwFinal].map fun s =>
      ([0, 1, 2, 3] : List Sample).map (tableEntry s)) =
    [[0x00, 0x01, 0x04, 0x00], [0x00, 0x00, 0x00, 0x02], [0x00, 0x00, 0x03, 0x00], [0x10, 0x00, 0x00, 0x00],
     [0x00, 0x00, 0x00, 0x05], [0x00, 0x06, 0x00, 0x00], [0x20, 0x00, 0x00, 0x00]]

/-- R32: one byte at address 4*s + x, always one of 0 to 27. -/
def Obligations.TableAddressing : Prop :=
  tableRom.length = 28 ∧ ∀ (s : DecoderState) (x : Sample),
    (tableAddress s x).toNat = 4 * s.code.toNat + x.toNat ∧ (tableAddress s x).toNat < 28 ∧
    tableRom[4 * s.code.toNat + x.toNat]? = some (tableEntry s x)

/-- R64: every STEP that is not abandoned completes without a fault, a sample outside the two sequences resolves to
START with no direction, and every state can be left. -/
def Obligations.TableIsTotal : Prop :=
  ∀ s : State, (∀ x, ∃ t, exec (.step false x) s = .next t ∧ t.out.fault = false ∧
      ((s.state, x) ∉ [(.start, 1), (.cwBegin, 3), (.cwNext, 2), (.cwFinal, 0),
        (.start, 2), (.ccwBegin, 3), (.ccwNext, 1), (.ccwFinal, 0)] → t.state = .start ∧ t.out.dir = 0)) ∧
    ∃ x t, exec (.step false x) s = .next t ∧ t.state ≠ s.state

/-- R65: the six cells that advance, with their targets; no other cell leaves START; none emits. -/
def Obligations.SixCellsAdvance : Prop :=
  (∀ (s : State) (x : Sample) (n : DecoderState),
    (s.state, x, n) ∈ [(.start, 1, .cwBegin), (.cwBegin, 3, .cwNext), (.cwNext, 2, .cwFinal),
      (.start, 2, .ccwBegin), (.ccwBegin, 3, .ccwNext), (.ccwNext, 1, .ccwFinal)] →
    exec (.step false x) s = .next { s with state := n, out := Outputs.quiet, notified := [] }) ∧
  ∀ (s t : State) (x : Sample), exec (.step false x) s = .next t → t.state ≠ .start →
    (s.state, x, t.state) ∈ [(.start, 1, .cwBegin), (.cwBegin, 3, .cwNext), (.cwNext, 2, .cwFinal),
      (.start, 2, .ccwBegin), (.ccwBegin, 3, .ccwNext), (.ccwNext, 1, .ccwFinal)]

/-- R66: every other cell but the two completing ones goes to START, emits nothing and keeps the count. -/
def Obligations.DeviationsGoToStart : Prop :=
  ∀ (s : State) (x : Sample),
    (s.state, x) ∉ [(.start, 1), (.cwBegin, 3), (.cwNext, 2), (.cwFinal, 0),
      (.start, 2), (.ccwBegin, 3), (.ccwNext, 1), (.ccwFinal, 0)] →
    exec (.step false x) s = .next { s with state := .start, out := Outputs.quiet, notified := [] }

/-- R67: a direction in exactly two cells, and START after it. -/
def Obligations.TwoCellsEmit : Prop :=
  ∀ (s : State) (x : Sample), ∃ t, exec (.step false x) s = .next t ∧
    (t.out.pulse = true ↔ (s.state = .cwFinal ∨ s.state = .ccwFinal) ∧ x = 0) ∧
    (s.state = .cwFinal → x = 0 → t.out.dir = 1) ∧ (s.state = .ccwFinal → x = 0 → t.out.dir = 2) ∧
    (t.out.pulse = true → t.state = .start)

/-! Whole-machine rules. -/

/-- R12: what a step leaves in `state`. -/
def Obligations.WhatChangesState : Prop :=
  ∀ s t : State, step s = .next t → t.state =
    if s.cycle.rst then .start
    else match decode s.cycle.cmd with
      | .step false x => DecoderState.ofCode ((tableEntry s.state x).extractLsb' 0 3)
      | _ => s.state

/-- R16, R82: what a step leaves in `count`, as an integer of `CNT_W` bits. -/
def Obligations.WhatChangesCount : Prop :=
  ∀ s t : State, step s = .next t → t.count.toInt =
    if s.cycle.rst then s.cfg.cntInit.toInt
    else match decode s.cycle.cmd with
      | .step false x =>
        if (tableEntry s.state x).extractLsb' 4 4 = 1 then (s.count.toInt + 1).bmod (2 ^ s.cfg.cntW)
        else if (tableEntry s.state x).extractLsb' 4 4 = 2 then (s.count.toInt - 1).bmod (2 ^ s.cfg.cntW)
        else s.count.toInt
      | .setcnt => s.cycle.wdata.toInt
      | _ => s.count.toInt

/-- R19: nothing writes `PPR` or any constant of the instance. -/
def Obligations.NothingWritesPpr : Prop :=
  ∀ s t : State, step s = .next t → t.cfg = s.cfg ∧
    ∀ u v, exec .rdppr s = .next u → exec .rdppr t = .next v → v.out.rdata = u.out.rdata

/-- The frame of every operation: what it may write, and that it writes nothing else
(sections 1 and 2 of 10_state.md). -/
def Obligations.OperationFrame : Prop :=
  ∀ (i : Instr) (s t : State), exec i s = .next t → ∃ d c o n,
    t = { s with state := d, count := c, out := o, notified := n } ∧
    ((∀ x, i ≠ .step false x) → d = s.state) ∧
    ((∀ x, i ≠ .step false x) → i ≠ .setcnt → c = s.count) ∧
    (s.subs = [] → n = [])

/-- R36: reads write no register and emit nothing, and a read after any operation but an unabandoned STEP and SETCNT
gives what it gave before it; every operation but an unabandoned STEP may be repeated with the same result, and that
STEP may not. -/
def Obligations.ReadsHaveNoSideEffect : Prop :=
  (∀ i ∈ [Instr.rdcnt, .rdppr, .rdrot, .rdstate], ∀ s : State, ∃ v,
    exec i s = .next { s with out := { Outputs.quiet with rvalid := true, rdata := v }, notified := [] }) ∧
  (∀ i ∈ [Instr.rdcnt, .rdppr, .rdrot, .rdstate], ∀ (j : Instr) (s t : State), (∀ x, j ≠ .step false x) →
    j ≠ .setcnt → exec j s = .next t → exec i t = exec i s) ∧
  (∀ (i : Instr) (s t : State), (∀ x, i ≠ .step false x) → exec i s = .next t → exec i t = .next t) ∧
  ∃ (x : Sample) (s t u : State), exec (.step false x) s = .next t ∧ exec (.step false x) t = .next u ∧
    u.state ≠ t.state

/-- R95, R96: exactly a STEP with a direction emits, and the event carries its direction and the count after the
update; otherwise the event port is 0. -/
def Obligations.EventExactlyOnDirection : Prop :=
  (∀ (i : Instr) (s t : State), exec i s = .next t →
    (t.out.pulse = true ↔ ∃ x, i = .step false x ∧ (tableEntry s.state x).extractLsb' 4 4 ≠ 0) ∧
    (∀ x, i = .step false x → t.out.dir = ((tableEntry s.state x).extractLsb' 4 4).setWidth 2) ∧
    (t.out.pulse = true → t.out.evcount = t.count ∧
      t.notified = s.subs.map fun k => { subscriber := k, count := t.count }) ∧
    (t.out.pulse = false → t.out.dir = 0 ∧ t.out.evcount = 0)) ∧
  ∀ s t : State, s.cycle.rst = true → step s = .next t →
    t.out.pulse = false ∧ t.out.dir = 0 ∧ t.out.evcount = 0

/-- R97: over any steps from any state, events and validated steps are equally many, and RDCNT after an event reads
the count it carried. -/
def Obligations.EventsMatchValidatedSteps : Prop :=
  (∀ (k : Nat) (s : State), (eventsOf k s).length = validatedSteps k s) ∧
  ∀ s t u : State, step s = .next t → t.out.pulse = true → exec .rdcnt t = .next u →
    u.out.rdata = t.out.evcount.signExtend 64

/-- R81: the ends of the range, and the update as an integer away from them. -/
def Obligations.CountWraps : Prop :=
  ∀ s : State, s.cfg.valid = true →
    (s.state = .cwFinal → ∃ t, exec (.step false 0) s = .next t ∧ t.out.fault = false ∧
      t.out.evcount = t.count ∧
      (s.count.toInt = 2 ^ (s.cfg.cntW - 1) - 1 → t.count.toInt = -2 ^ (s.cfg.cntW - 1)) ∧
      (s.count.toInt ≠ 2 ^ (s.cfg.cntW - 1) - 1 → t.count.toInt = s.count.toInt + 1)) ∧
    (s.state = .ccwFinal → ∃ t, exec (.step false 0) s = .next t ∧ t.out.fault = false ∧
      t.out.evcount = t.count ∧
      (s.count.toInt = -2 ^ (s.cfg.cntW - 1) → t.count.toInt = 2 ^ (s.cfg.cntW - 1) - 1) ∧
      (s.count.toInt ≠ -2 ^ (s.cfg.cntW - 1) → t.count.toInt = s.count.toInt - 1))

/-- R90: after a SETCNT step the next RDROT is of the new count, and the first later event counts from it. -/
def Obligations.SetIsSeenAtOnce : Prop :=
  ∀ s t : State, s.cycle.rst = false → decode s.cycle.cmd = .setcnt → step s = .next t →
    (∃ u, exec .rdrot t = .next u ∧ u.out.rdata = rot s.cfg.rotFmt s.cycle.wdata.toInt s.cfg.ppr.toNat) ∧
    ∀ k e es, t.noReset k → t.noSetcnt k → eventsOf k t = e :: es →
      e = (1, (s.cycle.wdata.toInt + 1).bmod (2 ^ s.cfg.cntW)) ∨
      e = (2, (s.cycle.wdata.toInt - 1).bmod (2 ^ s.cfg.cntW))

/-- R124: the step after an exception is as if the abandoned operation had never been issued (the cycle's changes
of the subscriber list apart, which are the environment's). -/
def Obligations.AbandonedOperationLeavesNoTrace : Prop :=
  ∀ (s : State) (c : Cycle s.cfg.cntW) (r : List (Cycle s.cfg.cntW)),
    c.rst = false → (decode c.cmd = .reserved ∨ ∃ x, decode c.cmd = .step true x) →
    ∃ t, step { s with inputs := c :: r } = .next t ∧ t.out.fault = true ∧
      step t = step { s with inputs := r, subs := c.wiring.foldl SubChange.apply s.subs }

/-- No step reads the ports of the step before it: an event or a fault is gone when its step ends
(R98 and R125 in their sections).  That the ports of a step stand in State is log 5. -/
def Obligations.OutputsAreNotRead : Prop :=
  ∀ (s : State) (o : Outputs s.cfg.cntW) (n : List (Notification s.cfg.cntW)),
    step { s with out := o, notified := n } = step s

/-! Subscribers. -/

/-- R100: registers and ports are the same whoever listens; each event reaches the list in its order, and an empty
list gets nothing. -/
def Obligations.SubscribersDoNotMatter : Prop :=
  ∀ (i : Instr) (s t : State) (l : List Nat), exec i s = .next t →
    exec i { s with subs := l } = .next { t with
      subs := l
      notified := if t.out.pulse then l.map fun k => { subscriber := k, count := t.out.evcount } else [] }

/-- R101: changes of the list during a cycle affect later events only. -/
def Obligations.FiringUsesTheListAsItStands : Prop :=
  ∀ (s : State) (c : Cycle s.cfg.cntW) (r : List (Cycle s.cfg.cntW)) (w : List SubChange),
    ∃ d x o n i,
      step { s with inputs := c :: r } = .next { s with
        state := d, count := x, out := o, notified := n, inputs := i
        subs := c.wiring.foldl SubChange.apply s.subs } ∧
      step { s with inputs := { c with wiring := w } :: r } = .next { s with
        state := d, count := x, out := o, notified := n, inputs := i
        subs := w.foldl SubChange.apply s.subs } ∧
      (o.pulse = true → n = s.subs.map fun k => { subscriber := k, count := o.evcount })

/-- A new subscriber comes last, and leaving keeps the order of the others (R99's first sentence).  What happens to a
subscriber that stands in the list more than once is the model's choice (log 20); registering a member and
unregistering a stranger are open (log 10). -/
def Obligations.SubscribersKeepInsertionOrder : Prop :=
  ∀ (l : List Nat) (k : Nat),
    (k ∉ l → SubChange.apply l (.register k) = l ++ [k]) ∧
    (k ∈ l → SubChange.apply l (.unregister k) = l.erase k)

/-! Sequences of samples. -/

/-- R69. -/
def Obligations.SampleZeroSynchronises : Prop :=
  (∀ s : State, ∃ t, exec (.step false 0) s = .next t ∧ t.state = .start ∧
    (t.out.dir = 1 ↔ s.state = .cwFinal) ∧ (t.out.dir = 2 ↔ s.state = .ccwFinal) ∧
    (t.out.pulse = true ↔ s.state = .cwFinal ∨ s.state = .ccwFinal)) ∧
  (∀ s : State, s.presents (goodSteps samplesFwd) → ∃ t, Host.Core.run core 5 s = .next t ∧
    t.state = .start ∧ t.out.pulse = true ∧ t.out.dir = 1) ∧
  ∀ s : State, s.presents (goodSteps samplesRev) → ∃ t, Host.Core.run core 5 s = .next t ∧
    t.state = .start ∧ t.out.pulse = true ∧ t.out.dir = 2

/-- R68, forward and reverse: N cycles from START emit N events, all of the one direction, one on each fourth STEP,
move the count by N (wrapped), and end in START; a leading STEP 00 changes nothing. -/
def Obligations.CyclesCountOneEach : Prop :=
  (∀ (n : Nat) (s : State), s.state = .start →
    s.presents (goodSteps (List.replicate n samplesCw4).flatten) →
    ∃ t, Host.Core.run core (4 * n) s = .next t ∧ t.state = .start ∧
      t.count.toInt = (s.count.toInt + n).bmod (2 ^ s.cfg.cntW) ∧
      (eventsOf (4 * n) s).map Prod.fst = List.replicate n 1 ∧ eventsOf (4 * n - 1) s = (eventsOf (4 * n) s).dropLast) ∧
  (∀ (n : Nat) (s : State), s.state = .start →
    s.presents (goodSteps (List.replicate n samplesCcw4).flatten) →
    ∃ t, Host.Core.run core (4 * n) s = .next t ∧ t.state = .start ∧
      t.count.toInt = (s.count.toInt - n).bmod (2 ^ s.cfg.cntW) ∧
      (eventsOf (4 * n) s).map Prod.fst = List.replicate n 2 ∧ eventsOf (4 * n - 1) s = (eventsOf (4 * n) s).dropLast) ∧
  ∀ s : State, s.state = .start → exec (.step false 0) s = .next { s with out := Outputs.quiet, notified := [] }

/-- R72: the table of starting states, for FWD, CW4, REV and CCW4. -/
def Obligations.SequencesFromEveryState : Prop :=
  (∀ s : State, s.presents (goodSteps samplesFwd) → ∃ t, Host.Core.run core 5 s = .next t ∧ t.state = .start ∧
    t.count.toInt = (s.count.toInt + countDir 1 (eventsOf 5 s) - countDir 2 (eventsOf 5 s)).bmod (2 ^ s.cfg.cntW) ∧
    (eventsOf 5 s).map Prod.fst = match s.state with
      | .cwFinal => [1, 1]
      | .ccwFinal => [2, 1]
      | _ => [1]) ∧
  (∀ s : State, s.presents (goodSteps samplesCw4) → ∃ t, Host.Core.run core 4 s = .next t ∧ t.state = .start ∧
    t.count.toInt = (s.count.toInt + countDir 1 (eventsOf 4 s) - countDir 2 (eventsOf 4 s)).bmod (2 ^ s.cfg.cntW) ∧
    (eventsOf 4 s).map Prod.fst = if s.state = .start then [1] else []) ∧
  (∀ s : State, s.presents (goodSteps samplesRev) → ∃ t, Host.Core.run core 5 s = .next t ∧ t.state = .start ∧
    t.count.toInt = (s.count.toInt + countDir 1 (eventsOf 5 s) - countDir 2 (eventsOf 5 s)).bmod (2 ^ s.cfg.cntW) ∧
    (eventsOf 5 s).map Prod.fst = match s.state with
      | .cwFinal => [1, 2]
      | .ccwFinal => [2, 2]
      | _ => [2]) ∧
  (∀ s : State, s.presents (goodSteps samplesCcw4) → ∃ t, Host.Core.run core 4 s = .next t ∧ t.state = .start ∧
    t.count.toInt = (s.count.toInt + countDir 1 (eventsOf 4 s) - countDir 2 (eventsOf 4 s)).bmod (2 ^ s.cfg.cntW) ∧
    (eventsOf 4 s).map Prod.fst = if s.state = .start then [2] else [])

/-- Over any steps with no reset and no SETCNT the count moves by the Clockwise events less the CounterClockwise
ones, modulo 2^`CNT_W` (sections 1 of 41_counter_rotation.md and 42_event_notifier.md). -/
def Obligations.CountIsTheBalanceOfEvents : Prop :=
  ∀ (k : Nat) (s : State), s.noReset k → s.noSetcnt k →
    ∃ t, Host.Core.run core k s = .next t ∧
      t.count.toInt = (s.count.toInt + countDir 1 (eventsOf k s) - countDir 2 (eventsOf k s)).bmod (2 ^ s.cfg.cntW)

/-- R70: which histories of samples, from START and without a reset, lead to the two FINAL states and to a pulse;
abandoned STEPs and other operations are not counted among the samples. -/
def Obligations.PulseNeedsTheWholeSequence : Prop :=
  (∀ (s t : State) (x : Sample), exec (.step false x) s = .next t →
    (t.out.dir = 1 ↔ s.state = .cwFinal ∧ x = 0) ∧ (t.out.dir = 2 ↔ s.state = .ccwFinal ∧ x = 0)) ∧
  ∀ (k : Nat) (s : State), s.state = .start → s.noReset k →
    ∃ t, Host.Core.run core k s = .next t ∧
      (t.state = .cwFinal ↔ ∃ ys, samplesOf (s.inputs.take k) = ys ++ [1, 3, 2] ∧ decoderRun .start ys = .start) ∧
      (t.state = .ccwFinal ↔ ∃ ys, samplesOf (s.inputs.take k) = ys ++ [2, 3, 1] ∧ decoderRun .start ys = .start)

/-- R71: a sample that leaves the sequence loses the cycle (no event in that STEP and the three after it), with the
document's example; and a step with an event is the last of four consecutive correct samples. -/
def Obligations.DisturbedCycleIsLost : Prop :=
  (∀ (s : State) (x a b c : Sample), s.state ≠ .start →
    (s.state, x) ∉ [(.cwBegin, 3), (.cwNext, 2), (.cwFinal, 0), (.ccwBegin, 3), (.ccwNext, 1), (.ccwFinal, 0)] →
    s.presents (goodSteps [x, a, b, c]) → eventsOf 4 s = []) ∧
  (∀ s : State, s.state = .start → s.presents (goodSteps [0, 1, 3, 2, 3, 2, 0]) → eventsOf 7 s = []) ∧
  ∀ (k : Nat) (s : State), s.state = .start → s.noReset k →
    ∃ t, Host.Core.run core k s = .next t ∧ (0 < k → t.out.pulse = true →
      [1, 3, 2, 0] <:+ samplesOf (s.inputs.take k) ∨ [2, 3, 1, 0] <:+ samplesOf (s.inputs.take k))

/-- From START no run invents a pulse, resets included: four good STEPs at least for every event, a STEP word on the
port in a reset cycle being none (section 5 of 40_decoder_fsm.md). -/
def Obligations.FourStepsPerPulse : Prop :=
  ∀ (k : Nat) (s : State), s.state = .start →
    4 * (eventsOf k s).length ≤ (samplesOf (s.inputs.take k)).length

/-- The edge modes "rising" and "falling" (section 3 of 70_reset_and_hazards.md, R150), in whichever direction the
shaft turns and however often it reverses: a rising edge leaves a line high, so no sample is 00, and a falling edge
leaves a line low, so none is 11.  From START neither ever leads to an event, whatever resets come between and
whatever command their cycles carry. -/
def Obligations.OneSidedEdgesNeverPulse : Prop :=
  ∀ (k : Nat) (s : State), s.state = .start →
    (0 ∉ samplesOf (s.inputs.take k) ∨ 3 ∉ samplesOf (s.inputs.take k)) →
    eventsOf k s = []

/-! The rotations value. -/

/-- R88: `rot` is a finite word nearest to the exact quotient, an even fraction on a tie, positive zero at 0.  That the
model computes `rot` instead of leaving it open is log 8. -/
def Obligations.RotationsRoundToNearestEven : Prop :=
  ∀ (f : RotFormat) (c : Int) (p : Nat), c.natAbs ≤ 2 ^ 63 → 1 ≤ p → p < 2 ^ 63 →
    isFinite f (rot f c p) ∧ (c = 0 → rot f c p = 0) ∧
    ∀ b : ReadData, isFinite f b →
      |floatValue f (rot f c p) - (c : ℚ) / p| ≤ |floatValue f b - (c : ℚ) / p| ∧
      (|floatValue f (rot f c p) - (c : ℚ) / p| = |floatValue f b - (c : ℚ) / p| →
        floatValue f b ≠ floatValue f (rot f c p) → (rot f c p).toNat % 2 = 0)

/-- R89: exact when some finite word is the quotient, sign as the count's, and the document's two examples. -/
def Obligations.RotationsExactAndSigned : Prop :=
  (∀ (f : RotFormat) (c : Int) (p : Nat), c.natAbs ≤ 2 ^ 63 → 1 ≤ p → p < 2 ^ 63 →
    (∀ b : ReadData, isFinite f b → floatValue f b = (c : ℚ) / p → floatValue f (rot f c p) = (c : ℚ) / p) ∧
    (floatValue f (rot f c p) < 0 ↔ c < 0) ∧ (0 < floatValue f (rot f c p) ↔ 0 < c)) ∧
  (∀ f : RotFormat, floatValue f (rot f 100 20) = 5 ∧ floatValue f (rot f (-10) 20) = -1 / 2)

/-- R91's second part (section 4 of 41_counter_rotation.md): never NaN, infinity, subnormal or negative zero.  The
layouts are those of log 8. -/
def Obligations.RotationsAreNormal : Prop :=
  ∀ (f : RotFormat) (c : Int) (p : Nat), c.natAbs ≤ 2 ^ 63 → 1 ≤ p → p < 2 ^ 63 → c ≠ 0 →
    (rot f c p).toNat < 2 ^ (exponentBits f + fractionBits f + 1) ∧
    1 ≤ (rot f c p).toNat / 2 ^ fractionBits f % 2 ^ exponentBits f ∧
    (rot f c p).toNat / 2 ^ fractionBits f % 2 ^ exponentBits f < 2 ^ exponentBits f - 1

/-! The invariant. -/

/-- Every step keeps the invariant of the instance and its event port, from every state that meets it. -/
def Obligations.StepKeepsTheInvariant : Prop :=
  ∀ s t : State, s.Inv → step s = .next t → t.Inv

/-- The machine at reset meets it, and so does every instance that can be built. -/
def Obligations.ResetMeetsTheInvariant : Prop :=
  State.reset.Inv ∧ ∀ (c : Config) (s : State), State.construct c = .next s → s.Inv

end
end

