-- ==== Sys2Proof/Laws/State.lean ====
section
/-! SUPPORT. What each named operation leaves in each field of State. -/

namespace Sys2Proof.Machine

section
variable (s : State)

@[simp] theorem State.drive_cfg (o) : (s.drive o).cfg = s.cfg := rfl
@[simp] theorem State.drive_state (o) : (s.drive o).state = s.state := rfl
@[simp] theorem State.drive_count (o) : (s.drive o).count = s.count := rfl
@[simp] theorem State.drive_out (o) : (s.drive o).out = o := rfl
@[simp] theorem State.drive_inputs (o) : (s.drive o).inputs = s.inputs := rfl
@[simp] theorem State.drive_subs (o) : (s.drive o).subs = s.subs := rfl
@[simp] theorem State.drive_notified (o) : (s.drive o).notified = [] := rfl

@[simp] theorem State.returnValue_cfg (v) : (s.returnValue v).cfg = s.cfg := rfl
@[simp] theorem State.returnValue_state (v) : (s.returnValue v).state = s.state := rfl
@[simp] theorem State.returnValue_count (v) : (s.returnValue v).count = s.count := rfl
@[simp] theorem State.returnValue_out (v) :
    (s.returnValue v).out = { Outputs.quiet with rvalid := true, rdata := v } := rfl
@[simp] theorem State.returnValue_inputs (v) : (s.returnValue v).inputs = s.inputs := rfl
@[simp] theorem State.returnValue_subs (v) : (s.returnValue v).subs = s.subs := rfl
@[simp] theorem State.returnValue_notified (v) : (s.returnValue v).notified = [] := rfl

@[simp] theorem State.raiseException_cfg (e) : (s.raiseException e).cfg = s.cfg := rfl
@[simp] theorem State.raiseException_state (e) : (s.raiseException e).state = s.state := rfl
@[simp] theorem State.raiseException_count (e) : (s.raiseException e).count = s.count := rfl
@[simp] theorem State.raiseException_out (e) :
    (s.raiseException e).out = { Outputs.quiet with fault := true, fcode := e.code } := rfl
@[simp] theorem State.raiseException_inputs (e) : (s.raiseException e).inputs = s.inputs := rfl
@[simp] theorem State.raiseException_subs (e) : (s.raiseException e).subs = s.subs := rfl
@[simp] theorem State.raiseException_notified (e) : (s.raiseException e).notified = [] := rfl

@[simp] theorem State.writeState_cfg (d) : (s.writeState d).cfg = s.cfg := rfl
@[simp] theorem State.writeState_state (d) : (s.writeState d).state = d := rfl
@[simp] theorem State.writeState_count (d) : (s.writeState d).count = s.count := rfl
@[simp] theorem State.writeState_out (d) : (s.writeState d).out = s.out := rfl
@[simp] theorem State.writeState_inputs (d) : (s.writeState d).inputs = s.inputs := rfl
@[simp] theorem State.writeState_subs (d) : (s.writeState d).subs = s.subs := rfl
@[simp] theorem State.writeState_notified (d) : (s.writeState d).notified = s.notified := rfl

@[simp] theorem State.writeCount_cfg (c) : (s.writeCount c).cfg = s.cfg := rfl
@[simp] theorem State.writeCount_state (c) : (s.writeCount c).state = s.state := rfl
@[simp] theorem State.writeCount_count (c) : (s.writeCount c).count = c := rfl
@[simp] theorem State.writeCount_out (c) : (s.writeCount c).out = s.out := rfl
@[simp] theorem State.writeCount_inputs (c) : (s.writeCount c).inputs = s.inputs := rfl
@[simp] theorem State.writeCount_subs (c) : (s.writeCount c).subs = s.subs := rfl
@[simp] theorem State.writeCount_notified (c) : (s.writeCount c).notified = s.notified := rfl

@[simp] theorem State.emitPulse_cfg (d) : (s.emitPulse d).cfg = s.cfg := rfl
@[simp] theorem State.emitPulse_state (d) : (s.emitPulse d).state = s.state := rfl
@[simp] theorem State.emitPulse_count (d) : (s.emitPulse d).count = s.count := rfl
@[simp] theorem State.emitPulse_out (d) : (s.emitPulse d).out = pulseOutputs d s.count := rfl
@[simp] theorem State.emitPulse_inputs (d) : (s.emitPulse d).inputs = s.inputs := rfl
@[simp] theorem State.emitPulse_subs (d) : (s.emitPulse d).subs = s.subs := rfl
@[simp] theorem State.emitPulse_notified (d) :
    (s.emitPulse d).notified = s.subs.map fun k => { subscriber := k, count := s.count } := rfl

@[simp] theorem State.resetInstance_cfg : s.resetInstance.cfg = s.cfg := rfl
@[simp] theorem State.resetInstance_state : s.resetInstance.state = .start := rfl
@[simp] theorem State.resetInstance_count : s.resetInstance.count = s.cfg.cntInit := rfl
@[simp] theorem State.resetInstance_out : s.resetInstance.out = Outputs.quiet := rfl
@[simp] theorem State.resetInstance_inputs : s.resetInstance.inputs = s.inputs := rfl
@[simp] theorem State.resetInstance_subs : s.resetInstance.subs = s.subs := rfl
@[simp] theorem State.resetInstance_notified : s.resetInstance.notified = [] := rfl

@[simp] theorem State.advance_cfg : s.advance.cfg = s.cfg := rfl
@[simp] theorem State.advance_state : s.advance.state = s.state := rfl
@[simp] theorem State.advance_count : s.advance.count = s.count := rfl
@[simp] theorem State.advance_out : s.advance.out = s.out := rfl
@[simp] theorem State.advance_inputs : s.advance.inputs = s.inputs.tail := rfl
@[simp] theorem State.advance_subs : s.advance.subs = s.cycle.wiring.foldl SubChange.apply s.subs := rfl
@[simp] theorem State.advance_notified : s.advance.notified = s.notified := rfl

@[simp] theorem State.present_cfg (c) : (s.present c).cfg = s.cfg := rfl
@[simp] theorem State.present_state (c) : (s.present c).state = s.state := rfl
@[simp] theorem State.present_count (c) : (s.present c).count = s.count := rfl
@[simp] theorem State.present_out (c) : (s.present c).out = s.out := rfl
@[simp] theorem State.present_inputs (c) : (s.present c).inputs = c :: s.inputs := rfl
@[simp] theorem State.present_subs (c) : (s.present c).subs = s.subs := rfl
@[simp] theorem State.present_notified (c) : (s.present c).notified = s.notified := rfl

/-- The cycle presented first is the present one. -/
@[simp] theorem State.present_cycle (c) : (s.present c).cycle = c := rfl

/-- Ending the cycle after presenting one gives the inputs back. -/
theorem State.present_advance_inputs (c) : (s.present c).advance.inputs = s.inputs := rfl

end

/-- Reading back the state just written. -/
theorem DecoderState.ofCode_code (d : DecoderState) : DecoderState.ofCode d.code = d := by
  cases d <;> rfl

end Sys2Proof.Machine
end

