-- ==== Sys2Proof/Laws/History.lean ====
section
/-! SUPPORT. What the histories that claims speak of do on each cycle, and what a change of the subscriber list does. -/

namespace Sys2Proof.Machine

/-- The command of a reset cycle gives no sample (R122, R135). -/
@[simp] theorem Cycle.sample?_reset {w : Nat} {c : Cycle w} (h : c.rst = true) : c.sample? = none := by
  simp [Cycle.sample?, h]

/-- Without a reset the sample is that of the decoded command. -/
theorem Cycle.sample?_eq_some {w : Nat} {c : Cycle w} {x : Sample} :
    c.sample? = some x ↔ c.rst = false ∧ decode c.cmd = .step false x := by
  unfold Cycle.sample?
  cases c.rst <;> cases h : decode c.cmd with
  | step serr y => cases serr <;> simp
  | _ => simp

@[simp] theorem samplesOf_nil {w : Nat} : samplesOf ([] : List (Cycle w)) = [] := rfl

theorem samplesOf_cons {w : Nat} (c : Cycle w) (cs : List (Cycle w)) :
    samplesOf (c :: cs) = c.sample?.toList ++ samplesOf cs := by
  unfold samplesOf
  rw [List.filterMap_cons]
  cases c.sample? <;> rfl

@[simp] theorem samplesOf_append {w : Nat} (cs ds : List (Cycle w)) :
    samplesOf (cs ++ ds) = samplesOf cs ++ samplesOf ds := List.filterMap_append

/-- A new subscriber comes last (R99). -/
theorem SubChange.apply_register {subs : List Nat} {k : Nat} (h : k ∉ subs) :
    SubChange.apply subs (.register k) = subs ++ [k] := by simp [SubChange.apply, h]

/-- A member leaves; of one who stands in the list more than once the first entry goes (log 20). -/
theorem SubChange.apply_unregister {subs : List Nat} {k : Nat} (h : k ∈ subs) :
    SubChange.apply subs (.unregister k) = subs.erase k := by simp [SubChange.apply, h]

end Sys2Proof.Machine
end

