-- ==== Sys2Proof/Laws/Ops.lean ====
section
/-! SUPPORT. One lemma for each shared operation that says everything it can do. -/

namespace Sys2Proof.Machine

/-- The direction is read from the high nibble (R63): what each value means for the nibble's three values. -/
theorem entryDirection_cases (e : TableByte) :
    (e.extractLsb' 4 4 = 1 ∧ entryDirection e = .clockwise) ∨
    (e.extractLsb' 4 4 = 2 ∧ entryDirection e = .counterClockwise) ∨
    (e.extractLsb' 4 4 ≠ 1 ∧ e.extractLsb' 4 4 ≠ 2 ∧ entryDirection e = .none) := by
  revert e; decide

/-- The decode and update of a STEP, by the direction of the table entry (R62, R80, R95). -/
theorem decodeAndUpdate_cases (s : State) (x : Sample) :
    ((decoderStep s.state x).2 = .none ∧ decodeAndUpdate s x =
      { s with state := (decoderStep s.state x).1, out := Outputs.quiet, notified := [] }) ∨
    ((decoderStep s.state x).2 = .clockwise ∧ decodeAndUpdate s x =
      { s with
        state := (decoderStep s.state x).1, count := s.count + 1, out := pulseOutputs .clockwise (s.count + 1)
        notified := s.subs.map fun k => { subscriber := k, count := s.count + 1 } }) ∨
    ((decoderStep s.state x).2 = .counterClockwise ∧ decodeAndUpdate s x =
      { s with
        state := (decoderStep s.state x).1, count := s.count - 1
        out := pulseOutputs .counterClockwise (s.count - 1)
        notified := s.subs.map fun k => { subscriber := k, count := s.count - 1 } }) := by
  unfold decodeAndUpdate
  rcases h : decoderStep s.state x with ⟨n, d⟩
  cases d
  · exact .inl ⟨rfl, rfl⟩
  · exact .inr (.inl ⟨rfl, rfl⟩)
  · exact .inr (.inr ⟨rfl, rfl⟩)

/-- Every operation keeps the constants, the inputs and the subscriber list. -/
theorem decodeAndUpdate_keeps (s : State) (x : Sample) :
    (decodeAndUpdate s x).cfg = s.cfg ∧ (decodeAndUpdate s x).subs = s.subs := by
  rcases decodeAndUpdate_cases s x with ⟨_, h⟩ | ⟨_, h⟩ | ⟨_, h⟩ <;> rw [h] <;> exact ⟨rfl, rfl⟩

/-- What `exec` can answer, operation by operation: each case names the operation and its whole next state. -/
theorem exec_cases {i : Instr} {s t : State} (h : exec i s = .next t) :
    (i = .nop ∧ t = s.drive Outputs.quiet) ∨
    ((∃ x, i = .step true x) ∧ t = s.raiseException .sampleReadFailure) ∨
    (∃ x, i = .step false x ∧ t = decodeAndUpdate s x) ∨
    (i = .setcnt ∧ t = { s with count := s.wdata, out := Outputs.quiet, notified := [] }) ∨
    (i = .rdcnt ∧ t = s.returnValue (countData s.count)) ∨
    (i = .rdppr ∧ t = s.returnValue (pprData s.cfg.ppr)) ∨
    (i = .rdrot ∧ t = s.returnValue (rot s.cfg.rotFmt s.count.toInt s.cfg.ppr.toNat)) ∨
    (i = .rdstate ∧ t = s.returnValue (stateData s.state)) ∨
    (i = .reserved ∧ t = s.raiseException .reservedOperation) := by
  cases i with
  | nop => injection h with h; exact .inl ⟨rfl, h.symm⟩
  | step serr x =>
    cases serr <;> injection h with h
    · exact .inr (.inr (.inl ⟨x, rfl, h.symm⟩))
    · exact .inr (.inl ⟨⟨x, rfl⟩, h.symm⟩)
  | setcnt => injection h with h; exact .inr (.inr (.inr (.inl ⟨rfl, h.symm⟩)))
  | rdcnt => injection h with h; exact .inr (.inr (.inr (.inr (.inl ⟨rfl, h.symm⟩))))
  | rdppr => injection h with h; exact .inr (.inr (.inr (.inr (.inr (.inl ⟨rfl, h.symm⟩)))))
  | rdrot => injection h with h; exact .inr (.inr (.inr (.inr (.inr (.inr (.inl ⟨rfl, h.symm⟩))))))
  | rdstate => injection h with h; exact .inr (.inr (.inr (.inr (.inr (.inr (.inr (.inl ⟨rfl, h.symm⟩)))))))
  | reserved => injection h with h; exact .inr (.inr (.inr (.inr (.inr (.inr (.inr (.inr ⟨rfl, h.symm⟩)))))))

end Sys2Proof.Machine
end

