-- ==== Sys2Proof/Laws/PerInstr.lean ====
section
/-! SUPPORT. Facts about instructions as syntax, one lemma per constructor. -/

/-- The operation code of an instruction stands in bits 5 to 3 of its word, whatever its operands
(30_encoding.md R51 and section 3). -/
def Sys2Proof.Laws.OpField.Statement : Sys2Proof.Instr → Prop
  | .nop => (Sys2Proof.encode .nop).extractLsb' 3 3 = 0
  | .step serr x => (Sys2Proof.encode (.step serr x)).extractLsb' 3 3 = 1
  | .setcnt => (Sys2Proof.encode .setcnt).extractLsb' 3 3 = 2
  | .rdcnt => (Sys2Proof.encode .rdcnt).extractLsb' 3 3 = 3
  | .rdppr => (Sys2Proof.encode .rdppr).extractLsb' 3 3 = 4
  | .rdrot => (Sys2Proof.encode .rdrot).extractLsb' 3 3 = 5
  | .rdstate => (Sys2Proof.encode .rdstate).extractLsb' 3 3 = 6
  | .reserved => (Sys2Proof.encode .reserved).extractLsb' 3 3 = 7

namespace Sys2Proof.Laws.OpField

theorem nop : Statement .nop := by unfold Statement; decide
theorem step (serr : Bool) (sample : Sample) : Statement (.step serr sample) := by
  unfold Statement; revert serr sample; decide
theorem setcnt : Statement .setcnt := by unfold Statement; decide
theorem rdcnt : Statement .rdcnt := by unfold Statement; decide
theorem rdppr : Statement .rdppr := by unfold Statement; decide
theorem rdrot : Statement .rdrot := by unfold Statement; decide
theorem rdstate : Statement .rdstate := by unfold Statement; decide
theorem reserved : Statement .reserved := by unfold Statement; decide

end Sys2Proof.Laws.OpField
end

