-- ==== Sys2Proof/Laws/Rotations.lean ====
section
/-! SUPPORT. What the rounding of the rotations divider can do. -/

namespace Sys2Proof.Machine

/-- Rounding gives the units or one more (R88). -/
theorem roundUnits_cases (m rest drop : Nat) (tail : Bool) :
    (roundUnits m rest drop tail = m ∧
      (rest < 2 ^ (drop - 1) ∨ rest = 2 ^ (drop - 1) ∧ tail = false ∧ m % 2 = 0)) ∨
    (roundUnits m rest drop tail = m + 1 ∧
      (2 ^ (drop - 1) < rest ∨ rest = 2 ^ (drop - 1) ∧ (tail = true ∨ m % 2 = 1))) := by
  unfold roundUnits
  simp only
  split
  · next h => exact .inr ⟨rfl, h⟩
  · next h =>
    refine .inl ⟨rfl, ?_⟩
    rw [not_or, not_and, not_or] at h
    rcases Nat.lt_trichotomy rest (2 ^ (drop - 1)) with hl | he | hg
    · exact .inl hl
    · exact .inr ⟨he, by simpa using (h.2 he).1, by have := (h.2 he).2; omega⟩
    · exact absurd hg h.1

/-- Positive zero at a count of 0 (R88). -/
@[simp] theorem rot_zero (f : RotFormat) (p : Nat) : rot f 0 p = 0 := rfl

end Sys2Proof.Machine
end

