-- ==== Sys2Proof/Laws/Table.lean ====
section
/-! SUPPORT. The decoder function as one case analysis, and the facts about codes it rests on. -/

namespace Sys2Proof.Machine

/-- `decoderStep` cell by cell: the six advancing cells, the two completing ones, START for all others. -/
theorem decoderStep_eq (s : DecoderState) (x : Sample) :
    decoderStep s x =
      if s = .start ∧ x = 1 then (.cwBegin, .none)
      else if s = .start ∧ x = 2 then (.ccwBegin, .none)
      else if s = .cwBegin ∧ x = 3 then (.cwNext, .none)
      else if s = .cwNext ∧ x = 2 then (.cwFinal, .none)
      else if s = .cwFinal ∧ x = 0 then (.start, .clockwise)
      else if s = .ccwBegin ∧ x = 3 then (.ccwNext, .none)
      else if s = .ccwNext ∧ x = 1 then (.ccwFinal, .none)
      else if s = .ccwFinal ∧ x = 0 then (.start, .counterClockwise)
      else (.start, .none) := by
  revert x; cases s <;> decide

/-- No entry holds the state code 7 or a direction above 2 (R13, R63; U2, U3). -/
theorem tableEntry_nibbles (s : DecoderState) (x : Sample) :
    (tableEntry s x).extractLsb' 0 4 ≤ 6 ∧ (tableEntry s x).extractLsb' 4 4 ≤ 2 := by
  revert x; cases s <;> decide

/-- The direction code is the entry's high nibble (R18, R63). -/
theorem decoderStep_direction_code (s : DecoderState) (x : Sample) :
    (decoderStep s x).2.code = ((tableEntry s x).extractLsb' 4 4).setWidth 2 := by
  revert x; cases s <;> decide

end Sys2Proof.Machine
end

