-- ==== Sys2Proof/Laws/Step.lean ====
section
/-! SUPPORT. What a step can do, said once. -/

namespace Sys2Proof.Machine

/-- A step that answers a next state did a reset, or ended the cycle of an operation that completed (R59, R122). -/
theorem step_cases {s t : State} (h : step s = .next t) :
    (s.cycle.rst = true ∧ t = s.resetInstance.advance) ∨
    (s.cycle.rst = false ∧ ∃ u, exec (decode s.cycle.cmd) s = .next u ∧ t = u.advance) := by
  unfold step at h
  split at h
  · injection h with h; exact .inl ⟨by assumption, h.symm⟩
  · next hr =>
    split at h
    · next u hu => injection h with h; exact .inr ⟨by simpa using hr, u, hu, h.symm⟩
    · cases h
    · cases h

/-- With no cycle presented a step is a NOP (log 3). -/
theorem step_idle {s : State} (h : s.inputs = []) : step s = .next (s.drive Outputs.quiet).advance := by
  have hc : s.cycle = Cycle.idle := by simp [State.cycle, h]
  have hd : decode (Cycle.idle : Cycle s.cfg.cntW).cmd = .nop := by simp only [Cycle.idle]; decide
  simp only [step, hc, hd]; rfl

/-- The command just presented is the one the next step runs, whatever the state (log 4). -/
theorem step_withFetchWord (s : State) (n w : Nat) :
    step (s.withFetchWord n w) =
      match exec (decode (BitVec.ofNat 6 w)) (s.withFetchWord n w) with
      | .next t => .next t.advance
      | .fault r => .fault r
      | .refused r => .refused r := rfl

end Sys2Proof.Machine
end

