-- ==== Sys2Proof/Tests/Slice0.lean ====
section
/-! SUPPORT. Tests: expected results are from the spec's own encodings and test vectors (95_test_vectors.md); and, for
each statement with hypotheses, a witness that meets them. -/

namespace Sys2Proof.Tests
open Sys2Proof Sys2Proof.Machine

/-- An instance with `CNT_W` = 8 and `PPR` = 4, as in program P5, with one subscriber. -/
def unit8 (st : DecoderState) (count : BitVec 8) (inputs : List (Cycle 8)) : State :=
  { State.ofConfig { cntW := 8, cntInit := 0, ppr := 4, rotFmt := .binary64 } with
    state := st, count := count, inputs := inputs, subs := [7] }

/-- An instance with the default width and a given `PPR` and format. -/
def unit32 (ppr : Int) (f : RotFormat) (count : BitVec 32) : State :=
  { State.ofConfig { cntW := 32, cntInit := 0, ppr := ppr, rotFmt := f } with count := count }

/-- A cycle that presents a command, with an operand. -/
def cyc (cmd : CommandWord) (wdata : BitVec 8 := 0) : Cycle 8 :=
  { rst := false, cmd := cmd, wdata := wdata, wiring := [] }

/-- A cycle of reset with a command on the port. -/
def rstCycle (cmd : CommandWord) : Cycle 8 := { cyc cmd with rst := true }

/-- A property of the next state, false when there is none. -/
def after (o : Host.Outcome State Fault Refusal) (p : State → Bool) : Bool :=
  match o with
  | .next t => p t
  | .fault _ => false
  | .refused _ => false

/-! Well-formedness: the one check, and an ill-formed term it refuses (R55). -/

theorem test_failed_step_with_sample_ill_formed : Instr.wellFormed (.step true 3) = false := by decide
theorem test_failed_step_canonical_well_formed : Instr.wellFormed (.step true 0) = true := by decide

/-! Decoding: words written out from the bit patterns of 30_encoding.md section 3. -/

theorem test_decode_nop : decode 0b000101 = .nop := by decide
theorem test_decode_step_10 : decode 0b001010 = .step false 0b10 := by decide
theorem test_decode_step_fail : decode 0b001111 = .step true 0 := by decide
theorem test_decode_setcnt : decode 0b010101 = .setcnt := by decide
theorem test_decode_rdcnt : decode 0b011000 = .rdcnt := by decide
theorem test_decode_rdppr : decode 0b100001 = .rdppr := by decide
theorem test_decode_rdrot : decode 0b101000 = .rdrot := by decide
theorem test_decode_rdstate : decode 0b110111 = .rdstate := by decide
theorem test_decode_reserved : decode 0b111111 = .reserved := by decide
theorem test_decode_wide_word : decodeTableWord 8 0x40 = none := by decide

/-! One step each (95_test_vectors.md sections 2.4 to 2.8, P3, P5). -/

theorem test_nop_ignored_bits : after (step (unit8 .cwNext (-3) [cyc 0x07])) (fun t =>
    t.state == .cwNext && t.count.toInt == -3 && t.out == Outputs.quiet) = true := by decide
theorem test_step_wraps_up : after (step (unit8 .cwFinal 127 [cyc 0x08])) (fun t =>
    t.state == .start && t.count.toInt == -128 && t.out.pulse && t.out.dir == 1 && t.out.evcount.toInt == -128) =
    true := by decide
theorem test_step_fail_keeps_state : after (step (unit8 .cwNext 0 [cyc 0x0C])) (fun t =>
    t.state == .cwNext && t.out.fault && t.out.fcode == 1 && !t.out.pulse) = true := by decide
theorem test_setcnt_ignored_bits : after (step (unit8 .ccwFinal 9 [cyc 0x15 1])) (fun t =>
    t.state == .ccwFinal && t.count.toInt == 1 && !t.out.pulse) = true := by decide
theorem test_rdcnt_negative : after (exec .rdcnt (unit32 20 .binary64 (-10))) (fun t =>
    t.out.rvalid && t.out.rdata == 0xFFFFFFFFFFFFFFF6) = true := by decide
theorem test_rdppr : after (exec .rdppr (unit32 20 .binary64 0)) (fun t =>
    t.out.rvalid && t.out.rdata == 0x14) = true := by decide
theorem test_rdstate : after (step (unit8 .ccwFinal 9 [cyc 0x30])) (fun t =>
    t.state == .ccwFinal && t.out.rvalid && t.out.rdata == 6) = true := by decide
theorem test_reserved_low_bits : after (step (unit8 .ccwFinal 9 [cyc 0x3F])) (fun t =>
    t.state == .ccwFinal && t.count.toInt == 9 && t.out.fault && t.out.fcode == 2) = true := by decide
theorem test_reset_beats_pulse : after (step (unit8 .cwFinal 41 [rstCycle 0x08])) (fun t =>
    t.state == .start && t.count.toInt == 0 && t.out == Outputs.quiet) = true := by decide
theorem test_pulse_notifies : after (step (unit8 .ccwFinal (-128) [cyc 0x08])) (fun t =>
    t.count.toInt == 127 && t.notified.map (·.subscriber) == [7]) = true := by decide

/-- RDROT reads through `exec` (E4, binary32). -/
theorem test_rdrot_binary32 : after (exec .rdrot (unit32 20 .binary32 100)) (fun t =>
    t.out.rvalid && t.out.rdata == 0x40A00000) = true := by decide

/-- Section 2.5: the binary64 and binary32 patterns. -/
theorem test_rot_patterns :
    [(0, 20), (-10, 20), (2, 20), (1, 3), (5, 24), (-2147483648, 1), (2147483647, 20), (1, 2147483647),
      (-2147483648, 2147483647)].map (fun q : Int × Nat => (rot .binary64 q.1 q.2, rot .binary32 q.1 q.2)) =
    [(0x0000000000000000, 0x00000000), (0xBFE0000000000000, 0xBF000000), (0x3FB999999999999A, 0x3DCCCCCD),
      (0x3FD5555555555555, 0x3EAAAAAB), (0x3FCAAAAAAAAAAAAB, 0x3E555555), (0xC1E0000000000000, 0xCF000000),
      (0x4199999999666666, 0x4CCCCCCD), (0x3E00000000200000, 0x30000000),
      (0xBFF0000000200000, 0xBF800000)] := by decide

/-- Section 2.8: construction. -/
theorem test_construction :
    ([1, 2147483647, 0, -1, 2147483648].map fun p =>
      after (State.construct { cntW := 32, cntInit := 0, ppr := p, rotFmt := .binary64 }) fun _ => true) =
    [true, true, false, false, false] := by decide

/-- R57: the forms of a line, with a comment. -/
theorem test_assemble_setcnt : assembleLine 32 "SETCNT -5 ; seed".toList =
    .ok [{ cmd := 0x10, wdata := 0xFFFFFFFB }] := by rfl
theorem test_assemble_step : (assembleLine 32 "STEP 01".toList, assembleLine 32 "STEP fail".toList) =
    (.ok [{ cmd := 0x09, wdata := 0 }], .ok [{ cmd := 0x0C, wdata := 0 }]) := by rfl

/-! Witnesses: each meets the hypotheses of the statement it names, clause by clause. -/

theorem witness_op_fields : [0x07, 0x0F, 0x17, 0x1F, 0x27, 0x2F, 0x37].map (fun w : CommandWord =>
    w.extractLsb' 3 3) = [0, 1, 2, 3, 4, 5, 6] := by decide
theorem witness_StepFollowsTable :
    (tableEntry .start 0).extractLsb' 4 4 = 0 ∧ (tableEntry .cwFinal 0).extractLsb' 4 4 = 1 ∧
    (tableEntry .ccwFinal 0).extractLsb' 4 4 = 2 := by decide
theorem witness_width_64 : Config.valid { cntW := 64, cntInit := 0, ppr := 1, rotFmt := .binary32 } = true := by decide
theorem witness_valid_instance : (unit8 .start 0 []).cfg.valid = true ∧ (unit8 .start 0 []).count = 0 := by decide
theorem witness_ReservedCodeRaises :
    after (exec .reserved (unit8 .start 0 [])) (fun t => t.out.fcode == 2) = true := by decide
theorem witness_FailedReadRaises : (0x0C : CommandWord).toNat = 0x0C ∧ (0x0F : CommandWord).toNat = 0x0F ∧
    after (exec (.step true 3) (unit8 .start 0 [])) (fun t => t.out.fcode == 1) = true := by decide
theorem witness_ExceptionOnlyReports :
    after (exec (.step true 0) (unit8 .cwNext 5 [])) (fun t => t.out.fault) = true := by decide
theorem witness_OneThingPerStep :
    (unit8 .start 0 [rstCycle 0x38]).cycle.rst = true ∧
    (unit8 .start 0 [cyc 0x3F]).cycle.cmd.extractLsb' 3 3 = 7 ∧
    (unit8 .start 0 [cyc 0x0C]).cycle.cmd.extractLsb' 3 3 = 1 ∧
    (unit8 .start 0 [cyc 0x0C]).cycle.cmd.getLsbD 2 = true ∧
    (unit8 .start 0 [cyc 0x0B]).cycle.cmd.extractLsb' 3 3 = 1 ∧
    (unit8 .start 0 [cyc 0x0B]).cycle.cmd.getLsbD 2 = false ∧
    (unit8 .start 0 [cyc 0x30]).cycle.cmd.extractLsb' 3 3 ≠ 7 := by decide
theorem witness_reset_cycle : (unit8 .cwFinal 41 [rstCycle 0x08]).cycle.rst = true := by decide
theorem witness_ConstructionChecksPpr :
    ([(2, 1), (2, 2), (64, 2 ^ 63 - 1), (64, 2 ^ 63), (32, 0)].map fun q : Nat × Int =>
      decide (2 ≤ q.1 ∧ q.1 ≤ 64 ∧ 1 ≤ q.2 ∧ q.2 ≤ 2 ^ (q.1 - 1) - 1)) = [true, false, true, false, false] := by decide
theorem witness_StepRunsDecoded :
    (unit8 .start 0 [cyc 0x09]).cycle.rst = false ∧ (unit8 .start 0 []).cycle.rst = false := by decide
theorem witness_DecodeEncodeAgree : Instr.wellFormed (.step false 3) = true ∧
    (0x0F : CommandWord).extractLsb' 3 3 = 1 ∧ (0x3F : CommandWord).extractLsb' 3 3 ≠ 1 := by decide
theorem witness_IgnoredBitsDoNotMatter :
    (cyc 0x07 1).cmd.extractLsb' 3 3 = (cyc 0x00 2).cmd.extractLsb' 3 3 ∧
    (cyc 0x0C).cmd.getLsbD 2 = (cyc 0x0F).cmd.getLsbD 2 ∧ (cyc 0x0C).cmd.extractLsb' 3 3 = 1 ∧
    (cyc 0x10 5).wdata = (cyc 0x17 5).wdata ∧ (cyc 0x17).cmd.extractLsb' 3 3 = 2 := by decide
theorem witness_SixCellsAdvance :
    after (exec (.step false 1) (unit8 .start 0 [])) (fun t => t.state != .start) = true ∧
    after (exec (.step false 1) (unit8 .ccwNext 0 [])) (fun t => t.state == .ccwFinal) = true := by decide
theorem witness_DeviationsGoToStart :
    (DecoderState.cwBegin, (1 : Sample)) ∉ [(DecoderState.start, (1 : Sample)), (.cwBegin, 3), (.cwNext, 2),
      (.cwFinal, 0), (.start, 2), (.ccwBegin, 3), (.ccwNext, 1), (.ccwFinal, 0)] := by decide
theorem witness_step_answers : after (step (unit8 .cwBegin 3 [cyc 0x0B])) (fun t => t.state == .cwNext) = true ∧
    after (step (unit8 .cwBegin 3 [rstCycle 0x0B])) (fun t => t.state == .start) = true ∧
    after (step (unit8 .cwBegin 3 [cyc 0x10 200])) (fun t => t.count == 200) = true := by decide
theorem witness_exec_answers : after (exec .rdcnt (unit8 .cwBegin 3 [])) (fun t => t.out.rdata == 3) = true ∧
    after (exec (.step false 0) (unit8 .ccwFinal 3 [])) (fun t => t.out.pulse && t.out.dir == 2) = true ∧
    after (exec (.step false 2) (unit8 .ccwFinal 3 [])) (fun t => !t.out.pulse) = true := by decide
theorem witness_EventsMatchValidatedSteps :
    after (step (unit8 .cwFinal 3 [cyc 0x08])) (fun t => t.out.pulse) = true := by decide
theorem witness_CountWraps :
    (unit8 .cwFinal 127 []).count.toInt = 2 ^ 7 - 1 ∧ (unit8 .cwFinal 126 []).count.toInt ≠ 2 ^ 7 - 1 ∧
    (unit8 .ccwFinal (-128) []).count.toInt = -2 ^ 7 ∧ (unit8 .ccwFinal (-127) []).count.toInt ≠ -2 ^ 7 ∧
    (unit8 .cwFinal 127 []).cfg.valid = true := by decide
theorem witness_SetIsSeenAtOnce :
    (unit8 .cwFinal 0 [cyc 0x10 127, cyc 0x08]).cycle.rst = false ∧
    decode (unit8 .cwFinal 0 [cyc 0x10 127, cyc 0x08]).cycle.cmd = .setcnt ∧
    after (step (unit8 .cwFinal 0 [cyc 0x10 127, cyc 0x08])) (fun t =>
      decide (t.noReset 1 ∧ t.noSetcnt 1 ∧ eventsOf 1 t = [(1, -128)])) = true := by decide
theorem witness_AbandonedOperationLeavesNoTrace :
    (cyc 0x0D).rst = false ∧ decode (cyc 0x0D).cmd = .step true 0 ∧ decode (cyc 0x38).cmd = .reserved := by decide
theorem witness_subscriber_changes :
    8 ∉ [7] ∧ 7 ∈ [7] ∧ after (step (unit8 .cwFinal 0 [cyc 0x08])) (fun t => t.out.pulse) = true := by decide
theorem witness_presents_fwd :
    (unit8 .cwFinal 0 [cyc 0x08, cyc 0x09, cyc 0x0B, cyc 0x0A, cyc 0x08]).presents (goodSteps samplesFwd) := by decide
theorem witness_presents_rev :
    (unit8 .ccwFinal 0 [cyc 0x08, cyc 0x0A, cyc 0x0B, cyc 0x09, cyc 0x08]).presents (goodSteps samplesRev) := by decide
theorem witness_presents_cw4 : (unit8 .start 127 [cyc 0x09, cyc 0x0B, cyc 0x0A, cyc 0x08]).presents
    (goodSteps (List.replicate 1 samplesCw4).flatten) ∧ (unit8 .start 127 []).state = .start := by decide
theorem witness_presents_ccw4 : (unit8 .start 127 [cyc 0x0A, cyc 0x0B, cyc 0x09, cyc 0x08]).presents
    (goodSteps (List.replicate 1 samplesCcw4).flatten) ∧ (unit8 .start 127 []).state = .start := by decide
theorem witness_quiet_stretch :
    (unit8 .start 0 [cyc 0x09, cyc 0x0C, cyc 0x0B]).noReset 3 ∧
    (unit8 .start 0 [cyc 0x09, cyc 0x0C, cyc 0x0B]).noSetcnt 3 ∧
    samplesOf (unit8 .start 0 [cyc 0x09, cyc 0x0C, cyc 0x0B]).inputs = [1, 3] := by decide
theorem witness_DisturbedCycleIsLost :
    (unit8 .cwFinal 0 [cyc 0x0B, cyc 0x09, cyc 0x0B, cyc 0x0A]).presents (goodSteps [3, 1, 3, 2]) ∧
    (unit8 .start 0 [cyc 0x08, cyc 0x09, cyc 0x0B, cyc 0x0A, cyc 0x0B, cyc 0x0A, cyc 0x08]).presents
      (goodSteps [0, 1, 3, 2, 3, 2, 0]) ∧
    (unit8 .start 0 [cyc 0x09, cyc 0x0B, cyc 0x0A, cyc 0x08]).noReset 4 ∧
    eventsOf 4 (unit8 .start 0 [cyc 0x09, cyc 0x0B, cyc 0x0A, cyc 0x08]) = [(1, 1)] := by decide
theorem witness_OneSidedEdgesNeverPulse :
    0 ∉ samplesOf [cyc 0x09, rstCycle 0x08, cyc 0x0B, cyc 0x0A, cyc 0x0B] ∧
    3 ∉ samplesOf [cyc 0x0A, cyc 0x08, rstCycle 0x0B, cyc 0x09, cyc 0x08] ∧
    (unit8 .start 0 [cyc 0x0A, cyc 0x08]).state = .start := by decide
theorem witness_rotations_range :
    (2 ^ 63 : Int).natAbs ≤ 2 ^ 63 ∧ (-2 ^ 63 : Int).natAbs ≤ 2 ^ 63 ∧ 1 ≤ 2 ^ 63 - 1 ∧ 2 ^ 63 - 1 < 2 ^ 63 ∧
    isFinite .binary32 0x3F800000 ∧ isFinite .binary64 0xFFEFFFFFFFFFFFFF := by decide
theorem witness_rotations_exact : isFinite .binary32 0x40A00000 ∧
    floatValue .binary32 0x40A00000 = ((100 : Int) : ℚ) / (20 : Nat) := by
  refine ⟨by decide, ?_⟩
  simp only [floatValue, fractionBits, exponentBits, exponentBias, BitVec.ofNat_eq_ofNat, BitVec.toNat_ofNat]
  norm_num
/-- A tie: 2^24 + 1 lies between two binary32 numbers, and the one with the even fraction is taken (R88). -/
theorem witness_rotations_tie : rot .binary32 16777217 1 = 0x4B800000 ∧ isFinite .binary32 0x4B800001 ∧
    floatValue .binary32 0x4B800000 = 16777217 - 1 ∧ floatValue .binary32 0x4B800001 = 16777217 + 1 := by
  refine ⟨by decide, by decide, ?_, ?_⟩ <;>
    simp only [floatValue, fractionBits, exponentBits, exponentBias, BitVec.ofNat_eq_ofNat, BitVec.toNat_ofNat] <;>
    norm_num
theorem witness_FourStepsPerPulse :
    (unit8 .start 0 [rstCycle 0x0A, cyc 0x09, cyc 0x0B, cyc 0x0A, cyc 0x08]).state = .start ∧
    (eventsOf 5 (unit8 .start 0 [rstCycle 0x0A, cyc 0x09, cyc 0x0B, cyc 0x0A, cyc 0x08])).length = 1 ∧
    samplesOf [rstCycle 0x0A, cyc 0x09, cyc 0x0B, cyc 0x0A, cyc 0x08] = [1, 3, 2, 0] := by decide
theorem witness_invariant : (unit8 .start 5 [cyc 0x08]).Inv ∧
    after (step (unit8 .start 5 [cyc 0x08])) (fun t => t.count == 5) = true := by decide

end Sys2Proof.Tests
end

section
/-! SUPPORT and the settled statements of 10_state.md: what an operation, and then a step, leaves in `state`, in
`count` and in the constants.  Proved once for `exec`, then carried to `step` by `step_cases`. -/

namespace Sys2Proof.Machine

/-! The direction of a table cell, read off its high nibble. -/

theorem decoderStep_clockwise_iff (s : DecoderState) (x : Sample) :
    (decoderStep s x).2 = .clockwise ↔ (tableEntry s x).extractLsb' 4 4 = 1 := by
  change entryDirection (tableEntry s x) = .clockwise ↔ _
  rcases entryDirection_cases (tableEntry s x) with ⟨hn, hd⟩ | ⟨hn, hd⟩ | ⟨hn, -, hd⟩
  · exact iff_of_true hd hn
  · simp [hd, hn]
  · exact iff_of_false (by simp [hd]) hn

theorem decoderStep_counterClockwise_iff (s : DecoderState) (x : Sample) :
    (decoderStep s x).2 = .counterClockwise ↔ (tableEntry s x).extractLsb' 4 4 = 2 := by
  change entryDirection (tableEntry s x) = .counterClockwise ↔ _
  rcases entryDirection_cases (tableEntry s x) with ⟨hn, hd⟩ | ⟨hn, hd⟩ | ⟨-, hn, hd⟩
  · simp [hd, hn]
  · exact iff_of_true hd hn
  · exact iff_of_false (by simp [hd]) hn

/-! One up and one down, as integers.  Both hold at every width: at width 1 the word 1 stands for -1, and `bmod`
takes the two to the same value. -/

theorem toInt_add_one {w : Nat} (c : BitVec w) : (c + 1).toInt = (c.toInt + 1).bmod (2 ^ w) := by
  rw [BitVec.toInt_add, BitVec.toInt_ofNat]
  exact Int.add_bmod_bmod

theorem toInt_sub_one {w : Nat} (c : BitVec w) : (c - 1).toInt = (c.toInt - 1).bmod (2 ^ w) := by
  rw [BitVec.toInt_sub, BitVec.toInt_ofNat]
  exact Int.sub_bmod_bmod

/-! What an unabandoned STEP leaves in the registers (R62, R80). -/

theorem decodeAndUpdate_state (s : State) (x : Sample) :
    (decodeAndUpdate s x).state = (decoderStep s.state x).1 := by
  rcases decodeAndUpdate_cases s x with ⟨-, h⟩ | ⟨-, h⟩ | ⟨-, h⟩ <;> rw [h]

theorem decodeAndUpdate_count_toInt (s : State) (x : Sample) :
    (decodeAndUpdate s x).count.toInt =
      if (decoderStep s.state x).2 = .clockwise then (s.count.toInt + 1).bmod (2 ^ s.cfg.cntW)
      else if (decoderStep s.state x).2 = .counterClockwise then (s.count.toInt - 1).bmod (2 ^ s.cfg.cntW)
      else s.count.toInt := by
  rcases decodeAndUpdate_cases s x with ⟨hd, h⟩ | ⟨hd, h⟩ | ⟨hd, h⟩ <;> rw [h]
  · simp [hd]
  · rw [if_pos hd]; exact toInt_add_one s.count
  · rw [if_neg (by simp [hd]), if_pos hd]; exact toInt_sub_one s.count

/-! The frame of `exec`, register by register. -/

section
variable {i : Instr} {s t : State}

/-- The registers have two writers among the operations, an unabandoned STEP and SETCNT; every other operation only
drives the ports (R12, R16). -/
theorem exec_writers (h : exec i s = .next t) :
    (∃ x, i = .step false x ∧ t = decodeAndUpdate s x) ∨
    (i = .setcnt ∧ t = { s with count := s.wdata, out := Outputs.quiet, notified := [] }) ∨
    ((∀ x, i ≠ .step false x) ∧ i ≠ .setcnt ∧ ∃ o, t = s.drive o) := by
  rcases exec_cases h with ⟨rfl, ht⟩ | ⟨⟨x, rfl⟩, ht⟩ | hstep | hset | ⟨rfl, ht⟩ | ⟨rfl, ht⟩ | ⟨rfl, ht⟩ |
    ⟨rfl, ht⟩ | ⟨rfl, ht⟩
  case inr.inr.inl => exact .inl hstep
  case inr.inr.inr.inl => exact .inr (.inl hset)
  all_goals exact .inr (.inr ⟨by simp, by simp, _, ht⟩)

/-- No operation writes the constants (R19, R24). -/
theorem exec_cfg (h : exec i s = .next t) : t.cfg = s.cfg := by
  rcases exec_writers h with ⟨x, -, rfl⟩ | ⟨-, rfl⟩ | ⟨-, -, o, rfl⟩
  · exact (decodeAndUpdate_keeps s x).1
  · rfl
  · rfl

/-- Only an unabandoned STEP writes `state` (R12). -/
theorem exec_state_of_ne_step (h : exec i s = .next t) (hi : ∀ x, i ≠ .step false x) : t.state = s.state := by
  rcases exec_writers h with ⟨x, hx, -⟩ | ⟨-, rfl⟩ | ⟨-, -, o, rfl⟩
  · exact absurd hx (hi x)
  · rfl
  · rfl

/-- Only an unabandoned STEP and SETCNT write `count` (R16). -/
theorem exec_count_toInt_of_ne (h : exec i s = .next t) (hi : ∀ x, i ≠ .step false x) (hc : i ≠ .setcnt) :
    t.count.toInt = s.count.toInt := by
  rcases exec_writers h with ⟨x, hx, -⟩ | ⟨hx, -⟩ | ⟨-, -, o, rfl⟩
  · exact absurd hx (hi x)
  · exact absurd hx hc
  · rfl

/-- An unabandoned STEP is one decode and update (R62). -/
theorem eq_decodeAndUpdate_of_exec_step {x : Sample} (h : exec (.step false x) s = .next t) :
    t = decodeAndUpdate s x := by
  injection h with h
  exact h.symm

/-- SETCNT loads `wdata` (R83). -/
theorem exec_setcnt_count_toInt (h : exec .setcnt s = .next t) : t.count.toInt = s.cycle.wdata.toInt := by
  injection h with h
  rw [← h]; rfl

/-- RDPPR returns the constant (R85). -/
theorem exec_rdppr_rdata (h : exec .rdppr s = .next t) : t.out.rdata = pprData s.cfg.ppr := by
  injection h with h
  rw [← h]; rfl

/-- No step writes the constants, a reset included (R19, R24). -/
theorem step_cfg (h : step s = .next t) : t.cfg = s.cfg := by
  rcases step_cases h with ⟨-, rfl⟩ | ⟨-, u, hu, rfl⟩
  · rfl
  · rw [State.advance_cfg]; exact exec_cfg hu

end

/-- Settles O28: reset restores START, an unabandoned STEP writes the table's next state, and the frame of `exec`
gives every other operation. -/
theorem whatChangesState : Obligations.WhatChangesState := by
  intro s t h
  rcases step_cases h with ⟨hr, rfl⟩ | ⟨hr, u, hu, rfl⟩
  · simp [hr]
  · simp only [hr, Bool.false_eq_true, if_false, State.advance_state]
    split
    · next x hd =>
      rw [hd] at hu
      rw [eq_decodeAndUpdate_of_exec_step hu, decodeAndUpdate_state]
      rfl
    · next hd => exact exec_state_of_ne_step hu hd

/-- Settles O29: as for `state`, with SETCNT as the third writer; the nibble of the table entry says which way an
unabandoned STEP counts. -/
theorem whatChangesCount : Obligations.WhatChangesCount := by
  intro s t h
  rcases step_cases h with ⟨hr, rfl⟩ | ⟨hr, u, hu, rfl⟩
  · simp [hr]
  · simp only [hr, Bool.false_eq_true, if_false]
    change u.count.toInt = _
    split
    · next x hd =>
      rw [hd] at hu
      rw [eq_decodeAndUpdate_of_exec_step hu, decodeAndUpdate_count_toInt]
      simp only [decoderStep_clockwise_iff, decoderStep_counterClockwise_iff]
    · next hd =>
      rw [hd] at hu
      exact exec_setcnt_count_toInt hu
    · next hi hc => exact exec_count_toInt_of_ne hu hi hc

/-- Settles O30: every step keeps the constants, and RDPPR reads nothing else. -/
theorem nothingWritesPpr : Obligations.NothingWritesPpr := by
  intro s t h
  refine ⟨step_cfg h, fun u v hu hv => ?_⟩
  rw [exec_rdppr_rdata hu, exec_rdppr_rdata hv, step_cfg h]

/-- Settles O14: the values are those `State.ofConfig` writes, and `Config.default` fixes width, count and format. -/
theorem resetValues : Obligations.ResetValues := by
  refine ⟨fun c => ⟨rfl, rfl, rfl, rfl⟩, rfl, ?_, rfl, rfl⟩
  change (0 : BitVec 32).toInt = 0
  exact BitVec.toInt_zero

end Sys2Proof.Machine
end

section
/-! SUPPORT and the settled statement of 20_memory.md: no operation reads the ports of the step before it, so an
operation that only drives ports is invisible to the next one. -/

namespace Sys2Proof.Machine

section
variable {i : Instr} {s t : State}

/-- A STEP overwrites the ports whatever its direction, so it does not see what they held (R62, R96). -/
theorem decodeAndUpdate_ports_unread (x : Sample) (o n) :
    decodeAndUpdate { s with out := o, notified := n } x = decodeAndUpdate s x := by
  unfold decodeAndUpdate
  rcases decoderStep s.state x with ⟨d, dir⟩
  cases dir <;> rfl

/-- No operation sees what the ports and the notifications held before it (R96, R98, R125). -/
theorem exec_ports_unread (i : Instr) (s : State) (o n) :
    exec i { s with out := o, notified := n } = exec i s := by
  cases i with
  | step serr x =>
    cases serr with
    | false => exact congrArg Host.Outcome.next (decodeAndUpdate_ports_unread x o n)
    | true => rfl
  | _ => rfl

/-- Each of the four reads returns a value and does nothing else (R36, R48). -/
theorem exec_read (hi : i ∈ [Instr.rdcnt, .rdppr, .rdrot, .rdstate]) (s : State) :
    ∃ v, exec i s = .next (s.returnValue v) := by
  simp only [List.mem_cons, List.not_mem_nil, or_false] at hi
  rcases hi with rfl | rfl | rfl | rfl <;> exact ⟨_, rfl⟩

/-- An operation other than an unabandoned STEP and SETCNT changes nothing that a later operation, a read
included, can see. -/
theorem exec_after_of_ne {j : Instr} (hj : ∀ x, j ≠ .step false x) (hc : j ≠ .setcnt) (h : exec j s = .next t) :
    exec i t = exec i s := by
  rcases exec_writers h with ⟨x, hx, -⟩ | ⟨hx, -⟩ | ⟨-, -, o, rfl⟩
  · exact absurd hx (hj x)
  · exact absurd hx hc
  · exact exec_ports_unread i s o []

/-- SETCNT twice in one cycle loads the same `wdata` twice (R36, R83). -/
theorem exec_setcnt_idempotent (h : exec .setcnt s = .next t) : exec .setcnt t = .next t := by
  injection h with h
  subst h
  rfl

/-- Every operation but an unabandoned STEP leaves, issued twice, what it left once (R36). -/
theorem exec_idempotent_of_ne_step (hi : ∀ x, i ≠ .step false x) (h : exec i s = .next t) : exec i t = .next t := by
  by_cases hc : i = .setcnt
  · subst hc
    exact exec_setcnt_idempotent h
  · rw [exec_after_of_ne hi hc h, h]

end

/-- Sample 01 moves START to CW_BEGIN, and CW_BEGIN back to START (R61, R65, R66). -/
theorem decodeAndUpdate_twice_from_reset :
    (decodeAndUpdate (decodeAndUpdate State.reset 1) 1).state ≠ (decodeAndUpdate State.reset 1).state := by
  simp only [decodeAndUpdate_state]
  change (decoderStep (decoderStep .start 1).1 1).1 ≠ (decoderStep .start 1).1
  decide

/-- Settles O32: a read only drives ports, and no operation sees the ports; SETCNT, the one idempotent operation that
writes a register, loads the same word again; two STEPs with sample 01 from reset end in different states. -/
theorem readsHaveNoSideEffect : Obligations.ReadsHaveNoSideEffect :=
  ⟨fun _ hi s => exec_read hi s,
   fun _ _ _ _ _ hj hc h => exec_after_of_ne hj hc h,
   fun _ _ _ hi h => exec_idempotent_of_ne_step hi h,
   1, State.reset, _, _, rfl, rfl, decodeAndUpdate_twice_from_reset⟩

end Sys2Proof.Machine
end

section
/-! SUPPORT and the settled statements of 30_encoding.md: what the decoder reads off a word, what an operation
reports as an exception, and which parts of the presented cycle a step reads. -/

namespace Sys2Proof.Machine

/-! The decoder, by the operation field. -/

/-- The operation field is the word's number in eighths (R51). -/
theorem opField_toNat (w : CommandWord) : (opField w).toNat = w.toNat / 8 := by
  rw [opField, BitVec.extractLsb'_toNat, Nat.shiftRight_eq_div_pow]
  omega

theorem decode_eq_reserved_iff (w : CommandWord) : decode w = .reserved ↔ (opField w).toNat = 7 := by
  have hlt : (opField w).toNat < 8 := (opField w).isLt
  unfold decode
  interval_cases (opField w).toNat <;> simp

theorem opField_of_decode_eq_setcnt {w : CommandWord} (h : decode w = .setcnt) : opField w = 2 := by
  unfold decode at h
  split at h
  case h_3 hop => exact BitVec.eq_of_toNat_eq hop
  all_goals cases h

/-- The decoder reads the operation field, `serr` of a STEP, and the sample of a STEP whose read did not fail
(R55). -/
theorem decode_congr {v w : CommandWord} (hop : opField v = opField w)
    (hstep : opField v = 1 → serrField v = serrField w ∧ (serrField v = false → sampleField v = sampleField w)) :
    decode v = decode w := by
  unfold decode
  rw [← hop]
  split
  case h_2 h1 =>
    obtain ⟨hserr, hsample⟩ := hstep (BitVec.eq_of_toNat_eq h1)
    rw [← hserr]
    cases hs : serrField v with
    | false => rw [hsample hs]
    | true => rfl
  all_goals rfl

/-! What an operation reports. -/

/-- An unabandoned STEP reports no exception, whatever its direction (R62). -/
theorem decodeAndUpdate_no_report (s : State) (x : Sample) :
    (decodeAndUpdate s x).out.fault = false ∧ (decodeAndUpdate s x).out.fcode = 0 := by
  rcases decodeAndUpdate_cases s x with ⟨-, h⟩ | ⟨-, h⟩ | ⟨-, h⟩ <;> rw [h] <;> exact ⟨rfl, rfl⟩

/-- The two operations that raise an exception, and the silence of all others (R115, R116, R118). -/
theorem exec_report_cases {i : Instr} {s t : State} (h : exec i s = .next t) :
    (i = .reserved ∧ t = s.raiseException .reservedOperation) ∨
    ((∃ x, i = .step true x) ∧ t = s.raiseException .sampleReadFailure) ∨
    (i ≠ .reserved ∧ (∀ x, i ≠ .step true x) ∧ t.out.fault = false ∧ t.out.fcode = 0) := by
  rcases exec_cases h with ⟨rfl, rfl⟩ | hfail | ⟨x, rfl, rfl⟩ | ⟨rfl, rfl⟩ | ⟨rfl, rfl⟩ | ⟨rfl, rfl⟩ |
    ⟨rfl, rfl⟩ | ⟨rfl, rfl⟩ | hres
  case inr.inl => exact .inr (.inl hfail)
  case inr.inr.inl => exact .inr (.inr ⟨by simp, by simp, decodeAndUpdate_no_report s x⟩)
  case inr.inr.inr.inr.inr.inr.inr.inr => exact .inl hres
  all_goals exact .inr (.inr ⟨by simp, by simp, rfl, rfl⟩)

/-- The code 2 names ReservedOperation and is left by nothing else (R118). -/
theorem eq_reserved_of_exec_fcode {i : Instr} {s t : State} (h : exec i s = .next t) (hc : t.out.fcode = 2) :
    i = .reserved := by
  rcases exec_report_cases h with ⟨hi, -⟩ | ⟨-, rfl⟩ | ⟨-, -, -, h0⟩
  · exact hi
  · exact absurd hc (by simp [Exception.code])
  · exact absurd (h0.symm.trans hc) (by decide)

/-- Settles O8: code 7 is the words from 7 * 8 = 0x38 on; of the two exceptions only ReservedOperation has code 2. -/
theorem reservedCodeRaises : Obligations.ReservedCodeRaises := by
  refine ⟨fun w => ?_, fun _ => rfl, fun _ _ _ => eq_reserved_of_exec_fcode⟩
  rw [decode_eq_reserved_iff, opField_toNat]
  have := w.isLt
  omega

/-! What a step reads of the presented cycle. -/

section
variable {s : State} {c d : Cycle s.cfg.cntW}

/-- Of the presented cycle an operation reads `wdata`, and only SETCNT does: it leaves the same registers and ports
under any two cycles that agree in that (R53, R55). -/
theorem exec_present_congr {i : Instr} (hw : i = .setcnt → c.wdata = d.wdata) :
    ∃ q x o n,
      exec i (s.present c) =
        .next (({ s with state := q, count := x, out := o, notified := n } : State).present c) ∧
      exec i (s.present d) =
        .next (({ s with state := q, count := x, out := o, notified := n } : State).present d) := by
  cases i with
  | setcnt => exact ⟨s.state, c.wdata, Outputs.quiet, [], rfl, by rw [hw rfl]; rfl⟩
  | step serr x =>
    cases serr with
    | true => exact ⟨_, _, _, _, rfl, rfl⟩
    | false =>
      simp only [exec, execStep, decodeAndUpdate, State.present_state]
      rcases decoderStep s.state x with ⟨q, dir⟩
      cases dir <;> exact ⟨_, _, _, _, rfl, rfl⟩
  | _ => exact ⟨_, _, _, _, rfl, rfl⟩

theorem step_of_rst (hr : s.cycle.rst = true) : step s = .next s.resetInstance.advance := if_pos hr

theorem step_of_exec {t : State} (hr : s.cycle.rst = false) (h : exec (decode s.cycle.cmd) s = .next t) :
    step s = .next t.advance := by
  simp [step, hr, h]

/-- The end of a cycle reads the cycle's changes of the subscriber list and drops the cycle (R101). -/
theorem present_advance_congr (hwiring : c.wiring = d.wiring) : (s.present c).advance = (s.present d).advance := by
  simp only [State.advance, State.present_cycle, hwiring]
  rfl

/-- Two cycles with the same reset line, changes of the subscriber list and operation, and for SETCNT the same
operand, give the same step (R55, R59). -/
theorem step_present_congr (hrst : c.rst = d.rst) (hwiring : c.wiring = d.wiring) (hdec : decode c.cmd = decode d.cmd)
    (hw : decode c.cmd = .setcnt → c.wdata = d.wdata) : step (s.present c) = step (s.present d) := by
  cases hr : c.rst with
  | true =>
    rw [step_of_rst (s := s.present c) hr, step_of_rst (s := s.present d) (hrst ▸ hr)]
    exact congrArg _ (present_advance_congr (s := s.resetInstance) hwiring)
  | false =>
    obtain ⟨q, x, o, n, hc, hd⟩ := exec_present_congr (s := s) hw
    rw [step_of_exec (s := s.present c) hr hc, step_of_exec (s := s.present d) (hrst ▸ hr) (hdec ▸ hd)]
    exact congrArg _ (present_advance_congr hwiring)

end

/-! The canonical words. -/

theorem commandWord_low_bits (op : BitVec 3) : commandWord op false 0 &&& 0x07 = 0 := by
  revert op; decide

theorem encode_low_bits {i : Instr} (hi : ∀ serr x, i ≠ .step serr x) : encode i &&& 0x07 = 0 := by
  cases i with
  | step serr x => exact absurd rfl (hi serr x)
  | _ => exact commandWord_low_bits _

/-- Settles O20: cycles that agree in the bits that are not ignored decode to the same operation, and a step reads
nothing else of them but the operand of SETCNT. -/
theorem ignoredBitsDoNotMatter : Obligations.IgnoredBitsDoNotMatter :=
  ⟨fun _ => encode_low_bits, by decide, fun s _ _ r hrst hwiring hop hstep hwdata =>
    step_present_congr (s := { s with inputs := r }) hrst hwiring (decode_congr hop hstep)
      fun h => hwdata (opField_of_decode_eq_setcnt h)⟩

end Sys2Proof.Machine
end

section
/-! SUPPORT and the settled statements of 40_decoder_fsm.md about one operation: the words of NOP, STEP and RDSTATE,
the cells of the table, and what a STEP leaves in the state and on the ports in each of them. -/

namespace Sys2Proof.Machine

/-! The words of the family, by the operation field. -/

theorem decode_of_opField_zero {w : CommandWord} (h : opField w = 0) : decode w = .nop := by
  simp [decode, h]

theorem decode_of_opField_one {w : CommandWord} (h : opField w = 1) :
    decode w = if serrField w then .step true 0 else .step false (sampleField w) := by
  cases hs : serrField w <;> simp [decode, h, hs]

theorem decode_of_opField_six {w : CommandWord} (h : opField w = 6) : decode w = .rdstate := by
  simp [decode, h]

theorem DecoderState.code_toNat_le_six (d : DecoderState) : d.code.toNat ≤ 6 := by
  cases d <;> decide

/-- Settles O1: the eight words of code 0 decode to NOP, which only drives quiet ports. -/
theorem nopDoesNothing : Obligations.NopDoesNothing :=
  ⟨fun _ => decode_of_opField_zero, by decide, fun _ => rfl⟩

/-- Settles O3: the value returned is the state's code, whose 3 bits zero-extend to the same number. -/
theorem rdstateReturnsCode : Obligations.RdstateReturnsCode := by
  refine ⟨fun _ => decode_of_opField_six, by decide, fun s => ⟨rfl, ?_⟩⟩
  rw [BitVec.toNat_setWidth_of_le (by decide)]
  exact s.state.code_toNat_le_six

/-- Settles O22: seven codes and 28 bytes, read off the table memory. -/
theorem tableListing : Obligations.TableListing := ⟨by decide, by decide⟩

/-! The cells of the table. -/

/-- The six cells in which the decoder advances along a sequence, with their targets (R65). -/
def advancingCells : List (DecoderState × Sample × DecoderState) :=
  [(.start, 1, .cwBegin), (.cwBegin, 3, .cwNext), (.cwNext, 2, .cwFinal),
    (.start, 2, .ccwBegin), (.ccwBegin, 3, .ccwNext), (.ccwNext, 1, .ccwFinal)]

/-- The eight cells in which the sample is the next one of a sequence: the advancing ones and the two that complete
one.  Every other cell is a deviation (R64, R66). -/
def sequenceCells : List (DecoderState × Sample) :=
  [(.start, 1), (.cwBegin, 3), (.cwNext, 2), (.cwFinal, 0), (.start, 2), (.ccwBegin, 3), (.ccwNext, 1), (.ccwFinal, 0)]

section
variable {d n : DecoderState} {x : Sample}

theorem decoderStep_of_advancing (h : (d, x, n) ∈ advancingCells) : decoderStep d x = (n, .none) := by
  revert x; cases d <;> cases n <;> decide

theorem advancing_of_ne_start (h : (decoderStep d x).1 ≠ .start) : (d, x, (decoderStep d x).1) ∈ advancingCells := by
  revert x; cases d <;> decide

theorem decoderStep_of_deviation (h : (d, x) ∉ sequenceCells) : decoderStep d x = (.start, .none) := by
  revert x; cases d <;> decide

theorem decoderStep_clockwise_iff_cell : (decoderStep d x).2 = .clockwise ↔ d = .cwFinal ∧ x = 0 := by
  revert x; cases d <;> decide

theorem decoderStep_counterClockwise_iff_cell :
    (decoderStep d x).2 = .counterClockwise ↔ d = .ccwFinal ∧ x = 0 := by
  revert x; cases d <;> decide

/-- A direction is emitted in the two completing cells only (R67). -/
theorem decoderStep_direction_ne_none_iff :
    (decoderStep d x).2 ≠ .none ↔ (d = .cwFinal ∨ d = .ccwFinal) ∧ x = 0 := by
  rw [or_and_right, ← decoderStep_clockwise_iff_cell, ← decoderStep_counterClockwise_iff_cell]
  cases (decoderStep d x).2 <;> simp

end

/-- Sample 00 continues no sequence but at its end, so it leads to START from every state (R69). -/
theorem decoderStep_sample_zero (d : DecoderState) : (decoderStep d 0).1 = .start := by
  cases d <;> rfl

/-- Sample 01 leaves START, sample 00 every other state (R64). -/
theorem exists_decoderStep_ne (d : DecoderState) : ∃ x, (decoderStep d x).1 ≠ d := by
  cases d with
  | start => exact ⟨1, by decide⟩
  | _ => exact ⟨0, by decide⟩

theorem tableEntry_direction_nibble (d : DecoderState) (x : Sample) :
    (tableEntry d x).extractLsb' 4 4 = 0 ∧ (decoderStep d x).2 = .none ∨
    (tableEntry d x).extractLsb' 4 4 = 1 ∧ (decoderStep d x).2 = .clockwise ∨
    (tableEntry d x).extractLsb' 4 4 = 2 ∧ (decoderStep d x).2 = .counterClockwise := by
  revert x; cases d <;> decide

theorem Direction.code_eq_one_iff (d : Direction) : d.code = 1 ↔ d = .clockwise := by
  cases d <;> decide

theorem Direction.code_eq_two_iff (d : Direction) : d.code = 2 ↔ d = .counterClockwise := by
  cases d <;> decide

/-! A STEP whose read did not fail. -/

theorem exec_step_false (s : State) (x : Sample) : exec (.step false x) s = .next (decodeAndUpdate s x) := rfl

section
variable {s : State} {x : Sample}

theorem decodeAndUpdate_of_none (h : (decoderStep s.state x).2 = .none) :
    decodeAndUpdate s x = { s with state := (decoderStep s.state x).1, out := Outputs.quiet, notified := [] } := by
  rcases decodeAndUpdate_cases s x with ⟨-, hu⟩ | ⟨hd, -⟩ | ⟨hd, -⟩
  · exact hu
  · cases h.symm.trans hd
  · cases h.symm.trans hd

theorem decodeAndUpdate_of_clockwise (h : (decoderStep s.state x).2 = .clockwise) :
    decodeAndUpdate s x = { s with
      state := (decoderStep s.state x).1, count := s.count + 1, out := pulseOutputs .clockwise (s.count + 1)
      notified := s.subs.map fun k => { subscriber := k, count := s.count + 1 } } := by
  rcases decodeAndUpdate_cases s x with ⟨hd, -⟩ | ⟨-, hu⟩ | ⟨hd, -⟩
  · cases h.symm.trans hd
  · exact hu
  · cases h.symm.trans hd

theorem decodeAndUpdate_of_counterClockwise (h : (decoderStep s.state x).2 = .counterClockwise) :
    decodeAndUpdate s x = { s with
      state := (decoderStep s.state x).1, count := s.count - 1
      out := pulseOutputs .counterClockwise (s.count - 1)
      notified := s.subs.map fun k => { subscriber := k, count := s.count - 1 } } := by
  rcases decodeAndUpdate_cases s x with ⟨hd, -⟩ | ⟨hd, -⟩ | ⟨-, hu⟩
  · cases h.symm.trans hd
  · cases h.symm.trans hd
  · exact hu

/-- The port `dir` carries the direction of the cell (R48, R95, R96). -/
theorem decodeAndUpdate_dir (s : State) (x : Sample) :
    (decodeAndUpdate s x).out.dir = (decoderStep s.state x).2.code := by
  rcases decodeAndUpdate_cases s x with ⟨hd, hu⟩ | ⟨hd, hu⟩ | ⟨hd, hu⟩ <;> rw [hd, hu] <;> rfl

@[simp] theorem Outputs.quiet_pulse {w : Nat} : (Outputs.quiet : Outputs w).pulse = false := rfl

@[simp] theorem pulseOutputs_pulse {w : Nat} (d : Direction) (c : BitVec w) : (pulseOutputs d c).pulse = true := rfl

/-- A STEP pulses when its cell has a direction (R95, R96). -/
theorem decodeAndUpdate_pulse_iff (s : State) (x : Sample) :
    (decodeAndUpdate s x).out.pulse = true ↔ (decoderStep s.state x).2 ≠ .none := by
  rcases decodeAndUpdate_cases s x with ⟨hd, hu⟩ | ⟨hd, hu⟩ | ⟨hd, hu⟩ <;> rw [hd, hu] <;> simp

theorem decodeAndUpdate_pulse_iff_cell (s : State) (x : Sample) :
    (decodeAndUpdate s x).out.pulse = true ↔ (s.state = .cwFinal ∨ s.state = .ccwFinal) ∧ x = 0 :=
  (decodeAndUpdate_pulse_iff s x).trans decoderStep_direction_ne_none_iff

theorem decodeAndUpdate_dir_eq_one_iff (s : State) (x : Sample) :
    (decodeAndUpdate s x).out.dir = 1 ↔ s.state = .cwFinal ∧ x = 0 := by
  rw [decodeAndUpdate_dir, Direction.code_eq_one_iff, decoderStep_clockwise_iff_cell]

theorem decodeAndUpdate_dir_eq_two_iff (s : State) (x : Sample) :
    (decodeAndUpdate s x).out.dir = 2 ↔ s.state = .ccwFinal ∧ x = 0 := by
  rw [decodeAndUpdate_dir, Direction.code_eq_two_iff, decoderStep_counterClockwise_iff_cell]

theorem decodeAndUpdate_of_deviation (h : (s.state, x) ∉ sequenceCells) :
    decodeAndUpdate s x = { s with state := .start, out := Outputs.quiet, notified := [] } := by
  rw [decodeAndUpdate_of_none] <;> rw [decoderStep_of_deviation h]

end

/-- Settles O2: the word's fields give the operation, a failed read only reports, and the three values of the
direction nibble are the three cases of the decode and update. -/
theorem stepFollowsTable : Obligations.StepFollowsTable := by
  refine ⟨fun _ => decode_of_opField_one, fun s x => ⟨rfl, ?_⟩⟩
  simp only [exec_step_false]
  rcases tableEntry_direction_nibble s.state x with ⟨hn, hd⟩ | ⟨hn, hd⟩ | ⟨hn, hd⟩
  · rw [hn, decodeAndUpdate_of_none hd]
    exact ⟨fun _ => rfl, fun h => absurd h (by decide), fun h => absurd h (by decide), .inl rfl⟩
  · rw [hn, decodeAndUpdate_of_clockwise hd]
    exact ⟨fun h => absurd h (by decide), fun _ => rfl, fun h => absurd h (by decide), .inr (.inl rfl)⟩
  · rw [hn, decodeAndUpdate_of_counterClockwise hd]
    exact ⟨fun h => absurd h (by decide), fun h => absurd h (by decide), fun _ => rfl, .inr (.inr rfl)⟩

/-- Settles O24: a STEP reports nothing, a deviation goes to START silently, and every row of the table has a cell
that leaves its state. -/
theorem tableIsTotal : Obligations.TableIsTotal := by
  refine fun s => ⟨fun x => ⟨_, rfl, (decodeAndUpdate_no_report s x).1, fun h => ?_⟩, ?_⟩
  · rw [decodeAndUpdate_of_deviation h]
    exact ⟨rfl, rfl⟩
  · obtain ⟨x, hx⟩ := exists_decoderStep_ne s.state
    exact ⟨x, _, rfl, by rwa [decodeAndUpdate_state]⟩

/-- Settles O25: an advancing cell has no direction, and the other cells of the table hold START. -/
theorem sixCellsAdvance : Obligations.SixCellsAdvance := by
  constructor
  · intro s x n h
    have hstep : decoderStep s.state x = (n, .none) := decoderStep_of_advancing h
    rw [exec_step_false, decodeAndUpdate_of_none] <;> rw [hstep]
  · intro s t x h hne
    rw [eq_decodeAndUpdate_of_exec_step h, decodeAndUpdate_state] at hne ⊢
    exact advancing_of_ne_start hne

/-- Settles O26: a cell outside the two sequences holds START and no direction. -/
theorem deviationsGoToStart : Obligations.DeviationsGoToStart :=
  fun _ _ h => congrArg Host.Outcome.next (decodeAndUpdate_of_deviation h)

/-- Settles O27: the two cells with a direction are those of sample 00, which leads to START. -/
theorem twoCellsEmit : Obligations.TwoCellsEmit := by
  intro s x
  refine ⟨_, rfl, decodeAndUpdate_pulse_iff_cell s x,
    fun hs hx => (decodeAndUpdate_dir_eq_one_iff s x).2 ⟨hs, hx⟩,
    fun hs hx => (decodeAndUpdate_dir_eq_two_iff s x).2 ⟨hs, hx⟩, fun hp => ?_⟩
  obtain ⟨-, rfl⟩ := (decodeAndUpdate_pulse_iff_cell s x).1 hp
  rw [decodeAndUpdate_state, decoderStep_sample_zero]

end Sys2Proof.Machine
end

section
/-! SUPPORT.  The pure decoder over a sequence of samples (R60): where it ends, and which directions it emits. -/

namespace Sys2Proof.Machine

/-- What the port `dir` shows of a direction, over the steps that pulse (R95, R96). -/
def Direction.eventCodes : Direction → List (BitVec 2)
  | .none => []
  | .clockwise => [1]
  | .counterClockwise => [2]

/-- The direction codes the decoder emits from a state over samples, oldest first; `eventsOf_codes` ties them to the
events of a run. -/
def directionCodes : DecoderState → List Sample → List (BitVec 2)
  | _, [] => []
  | d, x :: xs => (decoderStep d x).2.eventCodes ++ directionCodes (decoderStep d x).1 xs

@[simp] theorem decoderRun_nil (d : DecoderState) : decoderRun d [] = d := rfl

@[simp] theorem decoderRun_cons (d : DecoderState) (x : Sample) (xs : List Sample) :
    decoderRun d (x :: xs) = decoderRun (decoderStep d x).1 xs := rfl

@[simp] theorem decoderRun_append (d : DecoderState) (xs ys : List Sample) :
    decoderRun d (xs ++ ys) = decoderRun (decoderRun d xs) ys := List.foldl_append

@[simp] theorem directionCodes_nil (d : DecoderState) : directionCodes d [] = [] := rfl

theorem directionCodes_cons (d : DecoderState) (x : Sample) (xs : List Sample) :
    directionCodes d (x :: xs) = (decoderStep d x).2.eventCodes ++ directionCodes (decoderStep d x).1 xs := rfl

theorem directionCodes_append (d : DecoderState) (xs ys : List Sample) :
    directionCodes d (xs ++ ys) = directionCodes d xs ++ directionCodes (decoderRun d xs) ys := by
  induction xs generalizing d with
  | nil => rfl
  | cons x xs ih => simp [directionCodes_cons, ih]

/-- A state that one cell leads to is reached over histories that end in that cell's sample (R65). -/
theorem decoderRun_eq_iff_of_cell {d p : DecoderState} {y : Sample} (hd : d ≠ .start)
    (hcell : ∀ q x, (decoderStep q x).1 = d ↔ q = p ∧ x = y) (xs : List Sample) :
    decoderRun .start xs = d ↔ ∃ ys, xs = ys ++ [y] ∧ decoderRun .start ys = p := by
  rcases List.eq_nil_or_concat' xs with rfl | ⟨ys, x, rfl⟩
  · simp [hd.symm]
  · simp only [decoderRun_append, decoderRun_cons, decoderRun_nil, hcell]
    constructor
    · rintro ⟨hq, rfl⟩
      exact ⟨ys, rfl, hq⟩
    · rintro ⟨zs, h, hq⟩
      obtain ⟨rfl, hx⟩ := List.append_inj' h rfl
      exact ⟨hq, by simpa using hx⟩

/-- Three such states in a row: the last is reached over the three samples, from START (R70). -/
theorem decoderRun_eq_iff_of_cells {d₁ d₂ d₃ : DecoderState} {x₁ x₂ x₃ : Sample}
    (h₁ : ∀ q x, (decoderStep q x).1 = d₁ ↔ q = .start ∧ x = x₁)
    (h₂ : ∀ q x, (decoderStep q x).1 = d₂ ↔ q = d₁ ∧ x = x₂)
    (h₃ : ∀ q x, (decoderStep q x).1 = d₃ ↔ q = d₂ ∧ x = x₃)
    (hne : d₁ ≠ .start ∧ d₂ ≠ .start ∧ d₃ ≠ .start) (xs : List Sample) :
    decoderRun .start xs = d₃ ↔ ∃ ys, xs = ys ++ [x₁, x₂, x₃] ∧ decoderRun .start ys = .start := by
  obtain ⟨hne₁, hne₂, hne₃⟩ := hne
  constructor
  · intro h
    obtain ⟨ys, rfl, hys⟩ := (decoderRun_eq_iff_of_cell hne₃ h₃ _).1 h
    obtain ⟨zs, rfl, hzs⟩ := (decoderRun_eq_iff_of_cell hne₂ h₂ _).1 hys
    obtain ⟨ws, rfl, hws⟩ := (decoderRun_eq_iff_of_cell hne₁ h₁ _).1 hzs
    exact ⟨ws, by simp, hws⟩
  · rintro ⟨ys, rfl, h⟩
    have e₁ := (h₁ .start x₁).2 ⟨rfl, rfl⟩
    have e₂ := (h₂ d₁ x₂).2 ⟨rfl, rfl⟩
    have e₃ := (h₃ d₂ x₃).2 ⟨rfl, rfl⟩
    simp [h, e₁, e₂, e₃]

theorem decoderRun_eq_cwFinal_iff (xs : List Sample) :
    decoderRun .start xs = .cwFinal ↔ ∃ ys, xs = ys ++ [1, 3, 2] ∧ decoderRun .start ys = .start :=
  decoderRun_eq_iff_of_cells (d₁ := .cwBegin) (d₂ := .cwNext)
    (fun q => by cases q <;> decide) (fun q => by cases q <;> decide) (fun q => by cases q <;> decide) (by decide) xs

theorem decoderRun_eq_ccwFinal_iff (xs : List Sample) :
    decoderRun .start xs = .ccwFinal ↔ ∃ ys, xs = ys ++ [2, 3, 1] ∧ decoderRun .start ys = .start :=
  decoderRun_eq_iff_of_cells (d₁ := .ccwBegin) (d₂ := .ccwNext)
    (fun q => by cases q <;> decide) (fun q => by cases q <;> decide) (fun q => by cases q <;> decide) (by decide) xs

/-- Three samples complete no sequence from START (R70). -/
theorem directionCodes_start_three (a b c : Sample) : directionCodes .start [a, b, c] = [] := by
  revert a b c; decide

/-- A sample that continues no sequence costs the three samples after it as well (R71). -/
theorem directionCodes_of_deviation {d : DecoderState} {x : Sample} (h : (d, x) ∉ sequenceCells) (a b c : Sample) :
    directionCodes d [x, a, b, c] = [] := by
  rw [directionCodes_cons, decoderStep_of_deviation h, directionCodes_start_three]; rfl

/-- Sample 00 first: what follows is as from START (R69). -/
theorem decoderRun_zero_cons (d : DecoderState) (xs : List Sample) : decoderRun d (0 :: xs) = decoderRun .start xs := by
  rw [decoderRun_cons, decoderStep_sample_zero]

end Sys2Proof.Machine
end

section
/-! SUPPORT.  A step reads one cycle and leaves the rest; so a run without a reset takes the decoder over the samples
of its unabandoned STEPs, emits the directions of the cells it passes, and moves the count by the balance of the
events. -/

namespace Sys2Proof.Machine

/-! The balance of a history. -/

/-- The Clockwise events of a history less the CounterClockwise ones. -/
def netCount (es : List (BitVec 2 × Int)) : Int := countDir 1 es - countDir 2 es

@[simp] theorem netCount_nil : netCount [] = 0 := rfl

@[simp] theorem netCount_append (es fs : List (BitVec 2 × Int)) : netCount (es ++ fs) = netCount es + netCount fs := by
  simp only [netCount, countDir, List.countP_append]
  push_cast
  ring

theorem netCount_eq_count (es : List (BitVec 2 × Int)) :
    netCount es = (es.map Prod.fst).count 1 - (es.map Prod.fst).count 2 := by
  simp only [List.count_eq_countP, List.countP_map]; rfl

/-! One operation, as histories see it. -/

section
variable {i : Instr} {s t : State}

theorem exec_completes (i : Instr) (s : State) : ∃ t, exec i s = .next t := by
  cases i with
  | step serr x => cases serr <;> exact ⟨_, rfl⟩
  | _ => exact ⟨_, rfl⟩

/-- Only an unabandoned STEP pulses (R95, R96). -/
theorem exec_pulse_of_ne_step (h : exec i s = .next t) (hi : ∀ x, i ≠ .step false x) : t.out.pulse = false := by
  rcases exec_cases h with ⟨-, rfl⟩ | ⟨-, rfl⟩ | ⟨x, hx, -⟩ | ⟨-, rfl⟩ | ⟨-, rfl⟩ | ⟨-, rfl⟩ | ⟨-, rfl⟩ | ⟨-, rfl⟩ |
    ⟨-, rfl⟩
  case inr.inr.inl => exact absurd hx (hi x)
  all_goals rfl

theorem exec_frame (h : exec i s = .next t) :
    ∃ d c o n, t = { s with state := d, count := c, out := o, notified := n } := by
  rcases exec_writers h with ⟨x, -, rfl⟩ | ⟨-, rfl⟩ | ⟨-, -, o, rfl⟩
  · rcases decodeAndUpdate_cases s x with ⟨-, h⟩ | ⟨-, h⟩ | ⟨-, h⟩ <;> exact ⟨_, _, _, _, h⟩
  · exact ⟨_, _, _, _, rfl⟩
  · exact ⟨_, _, _, _, rfl⟩

@[simp] theorem State.advance_event (s : State) : s.advance.event = s.event := rfl

theorem State.event_of_not_pulse (h : t.out.pulse = false) : t.event = none := by
  simp [State.event, h]

/-- The event of a STEP shows the direction of its cell. -/
theorem decodeAndUpdate_event_codes (s : State) (x : Sample) :
    (decodeAndUpdate s x).event.toList.map Prod.fst = (decoderStep s.state x).2.eventCodes := by
  rcases decodeAndUpdate_cases s x with ⟨hd, hu⟩ | ⟨hd, hu⟩ | ⟨hd, hu⟩ <;> rw [hd, hu] <;> rfl

/-- The count moves by the event of the STEP (R80, R95). -/
theorem decodeAndUpdate_count_netCount (s : State) (x : Sample) :
    (decodeAndUpdate s x).count.toInt =
      (s.count.toInt + netCount (decodeAndUpdate s x).event.toList).bmod (2 ^ s.cfg.cntW) := by
  rcases decodeAndUpdate_cases s x with ⟨-, hu⟩ | ⟨-, hu⟩ | ⟨-, hu⟩ <;> rw [hu]
  · exact (by simp [BitVec.toInt_bmod_cancel] : s.count.toInt = (s.count.toInt + 0).bmod (2 ^ s.cfg.cntW))
  · exact toInt_add_one s.count
  · exact toInt_sub_one s.count

end

/-! One step. -/

section
variable {s t : State}

theorem step_completes (s : State) : ∃ t, step s = .next t := by
  cases hr : s.cycle.rst with
  | true => exact ⟨_, step_of_rst hr⟩
  | false =>
    obtain ⟨t, ht⟩ := exec_completes (decode s.cycle.cmd) s
    exact ⟨_, step_of_exec hr ht⟩

theorem step_frame (h : step s = .next t) : ∃ d c o n l, t = { s with
    state := d, count := c, out := o, notified := n, subs := l, inputs := s.inputs.tail } := by
  rcases step_cases h with ⟨-, rfl⟩ | ⟨-, u, hu, rfl⟩
  · exact ⟨_, _, _, _, _, rfl⟩
  · obtain ⟨d, c, o, n, rfl⟩ := exec_frame hu
    exact ⟨_, _, _, _, _, rfl⟩

/-- Without a reset a step runs an unabandoned STEP with the cycle's sample, or leaves the decoder alone and emits
nothing (R12, R96). -/
theorem step_sample_cases (h : step s = .next t) (hr : s.cycle.rst = false) :
    (∃ x, s.cycle.sample? = some x ∧ t = (decodeAndUpdate s x).advance) ∨
    (s.cycle.sample? = none ∧ t.state = s.state ∧ t.out.pulse = false ∧
      (decode s.cycle.cmd ≠ .setcnt → t.count.toInt = s.count.toInt)) := by
  rcases step_cases h with ⟨hr', -⟩ | ⟨-, u, hu, rfl⟩
  · exact absurd hr' (by simp [hr])
  cases hx : s.cycle.sample? with
  | some x =>
    rw [(Cycle.sample?_eq_some.1 hx).2] at hu
    rw [eq_decodeAndUpdate_of_exec_step hu]
    exact .inl ⟨x, rfl, rfl⟩
  | none =>
    have hi : ∀ x, decode s.cycle.cmd ≠ .step false x := fun x hd =>
      absurd (hx.symm.trans (Cycle.sample?_eq_some.2 ⟨hr, hd⟩)) (by simp)
    exact .inr ⟨rfl, (exec_state_of_ne_step hu hi :), (exec_pulse_of_ne_step hu hi :),
      (exec_count_toInt_of_ne hu hi :)⟩

theorem step_state (h : step s = .next t) (hr : s.cycle.rst = false) :
    t.state = decoderRun s.state s.cycle.sample?.toList := by
  rcases step_sample_cases h hr with ⟨x, hx, rfl⟩ | ⟨hx, hs, -, -⟩
  · rw [hx, State.advance_state, decodeAndUpdate_state]; rfl
  · rw [hx, hs]; rfl

theorem step_event_codes (h : step s = .next t) (hr : s.cycle.rst = false) :
    t.event.toList.map Prod.fst = directionCodes s.state s.cycle.sample?.toList := by
  rcases step_sample_cases h hr with ⟨x, hx, rfl⟩ | ⟨hx, -, hp, -⟩
  · rw [hx, State.advance_event, decodeAndUpdate_event_codes]
    exact (List.append_nil _).symm
  · rw [hx, State.event_of_not_pulse hp]; rfl

/-- A pulse comes from an unabandoned STEP; a reset cycle emits none (R95, R96, R135). -/
theorem step_sample_of_pulse (h : step s = .next t) (hp : t.out.pulse = true) :
    ∃ x, s.cycle.sample? = some x ∧ t = (decodeAndUpdate s x).advance := by
  rcases step_cases h with ⟨-, rfl⟩ | ⟨hr, -⟩
  · cases hp
  rcases step_sample_cases h hr with hstep | ⟨-, -, hq, -⟩
  · exact hstep
  · cases hp.symm.trans hq

theorem step_count_toInt (h : step s = .next t) (hr : s.cycle.rst = false) (hc : decode s.cycle.cmd ≠ .setcnt) :
    t.count.toInt = (s.count.toInt + netCount t.event.toList).bmod (2 ^ s.cfg.cntW) := by
  rcases step_sample_cases h hr with ⟨x, -, rfl⟩ | ⟨-, -, hp, hcount⟩
  · exact decodeAndUpdate_count_netCount s x
  · rw [hcount hc, State.event_of_not_pulse hp]
    simp [BitVec.toInt_bmod_cancel]

/-! A step reads the first of the cycles to come and leaves the others. -/

@[simp] theorem Cycle.idle_sample? {w : Nat} : (Cycle.idle : Cycle w).sample? = none := by
  simp [Cycle.sample?, Cycle.idle, decode, opField]

/-- The cycles a run reads are the present one and those its next step leaves; where nobody presents one, the idle
cycle stands for it (log 3). -/
theorem forall_mem_take_succ {p : Cycle s.cfg.cntW → Prop} {k : Nat} (hidle : p Cycle.idle)
    (h : ∀ c ∈ s.inputs.take (k + 1), p c) : p s.cycle ∧ ∀ c ∈ s.inputs.tail.take k, p c := by
  unfold State.cycle
  cases hin : s.inputs with
  | nil => simpa using hidle
  | cons c cs => simpa [hin] using h

theorem step_noReset {k : Nat} (h : step s = .next t) (hs : s.noReset (k + 1)) :
    s.cycle.rst = false ∧ t.noReset k := by
  obtain ⟨d, c, o, n, l, rfl⟩ := step_frame h
  exact forall_mem_take_succ (p := fun c => c.rst = false) rfl hs

theorem step_noSetcnt {k : Nat} (h : step s = .next t) (hs : s.noSetcnt (k + 1)) :
    decode s.cycle.cmd ≠ .setcnt ∧ t.noSetcnt k := by
  obtain ⟨d, c, o, n, l, rfl⟩ := step_frame h
  exact forall_mem_take_succ (p := fun c => decode c.cmd ≠ .setcnt) (by simp [Cycle.idle, decode, opField]) hs

theorem step_samplesOf (h : step s = .next t) (k : Nat) :
    samplesOf (s.inputs.take (k + 1)) = s.cycle.sample?.toList ++ samplesOf (t.inputs.take k) := by
  obtain ⟨d, c, o, n, l, rfl⟩ := step_frame h
  unfold State.cycle
  cases hin : s.inputs with
  | nil => simp
  | cons c cs => simp [samplesOf_cons]

theorem step_presents {i : Instr} {is : List Instr} (h : step s = .next t) (hs : s.presents (i :: is)) :
    s.cycle.rst = false ∧ decode s.cycle.cmd = i ∧ t.presents is := by
  obtain ⟨d, c, o, n, l, rfl⟩ := step_frame h
  unfold State.cycle
  cases hin : s.inputs with
  | nil => simp [State.presents, hin] at hs
  | cons c cs => simpa [State.presents, hin, and_assoc] using hs

/-- One step of a presented sequence of good STEPs. -/
theorem step_presents_goodSteps {x : Sample} {xs : List Sample} (hs : s.presents (goodSteps (x :: xs))) :
    step s = .next (decodeAndUpdate s x).advance ∧ (decodeAndUpdate s x).advance.presents (goodSteps xs) := by
  obtain ⟨t, ht⟩ := step_completes s
  obtain ⟨hr, hd, hp⟩ := step_presents ht hs
  have hstep : step s = .next (decodeAndUpdate s x).advance := step_of_exec hr (by rw [hd, exec_step_false])
  cases ht.symm.trans hstep
  exact ⟨hstep, hp⟩

end

/-! Runs: the first step and the last one, and the decoder over the whole of it. -/

section
variable {s t u : State} {k : Nat}

theorem run_zero (s : State) : Host.Core.run core 0 s = .next s := rfl

theorem run_succ_of_step (h : step s = .next t) : Host.Core.run core (k + 1) s = Host.Core.run core k t := by
  simp only [Host.Core.run, core, h]

theorem eventsOf_succ_of_step (h : step s = .next t) : eventsOf (k + 1) s = t.event.toList ++ eventsOf k t := by
  simp only [eventsOf, h]

theorem run_completes (k : Nat) (s : State) : ∃ t, Host.Core.run core k s = .next t := by
  induction k generalizing s with
  | zero => exact ⟨s, rfl⟩
  | succ k ih =>
    obtain ⟨t, ht⟩ := step_completes s
    rw [run_succ_of_step ht]
    exact ih t

/-- Cuts the last step off a run. -/
theorem run_succ_last (h : Host.Core.run core k s = .next u) (hu : step u = .next t) :
    Host.Core.run core (k + 1) s = .next t ∧ eventsOf (k + 1) s = eventsOf k s ++ t.event.toList ∧
    samplesOf (s.inputs.take (k + 1)) = samplesOf (s.inputs.take k) ++ u.cycle.sample?.toList := by
  induction k generalizing s with
  | zero =>
    cases (run_zero s).symm.trans h
    exact ⟨run_succ_of_step hu, by simp [eventsOf, hu], by simp [step_samplesOf hu]⟩
  | succ k ih =>
    obtain ⟨v, hv⟩ := step_completes s
    rw [run_succ_of_step hv] at h
    obtain ⟨hrun, hev, hsam⟩ := ih h
    rw [run_succ_of_step hv, eventsOf_succ_of_step hv, eventsOf_succ_of_step hv, step_samplesOf hv,
      step_samplesOf hv, hev, hsam]
    simp [hrun]

theorem run_state (hs : s.noReset k) (h : Host.Core.run core k s = .next t) :
    t.state = decoderRun s.state (samplesOf (s.inputs.take k)) := by
  induction k generalizing s with
  | zero =>
    cases (run_zero s).symm.trans h
    simp
  | succ k ih =>
    obtain ⟨v, hv⟩ := step_completes s
    obtain ⟨hr, hn⟩ := step_noReset hv hs
    rw [run_succ_of_step hv] at h
    rw [ih hn h, step_samplesOf hv, decoderRun_append, step_state hv hr]

theorem eventsOf_codes (hs : s.noReset k) :
    (eventsOf k s).map Prod.fst = directionCodes s.state (samplesOf (s.inputs.take k)) := by
  induction k generalizing s with
  | zero => simp [eventsOf]
  | succ k ih =>
    obtain ⟨v, hv⟩ := step_completes s
    obtain ⟨hr, hn⟩ := step_noReset hv hs
    rw [eventsOf_succ_of_step hv, List.map_append, ih hn, step_samplesOf hv, directionCodes_append,
      step_event_codes hv hr, step_state hv hr]

/-- Without reset and SETCNT the count moves by the balance of the events, modulo its range (R97). -/
theorem run_count_toInt (hs : s.noReset k) (hc : s.noSetcnt k) (h : Host.Core.run core k s = .next t) :
    t.count.toInt = (s.count.toInt + netCount (eventsOf k s)).bmod (2 ^ s.cfg.cntW) := by
  induction k generalizing s with
  | zero =>
    cases (run_zero s).symm.trans h
    simp [eventsOf, BitVec.toInt_bmod_cancel]
  | succ k ih =>
    obtain ⟨v, hv⟩ := step_completes s
    obtain ⟨hr, hn⟩ := step_noReset hv hs
    obtain ⟨hd, hm⟩ := step_noSetcnt hv hc
    rw [run_succ_of_step hv] at h
    rw [ih hn hm h, step_count_toInt hv hr hd, step_cfg hv, eventsOf_succ_of_step hv, netCount_append,
      Int.bmod_add_bmod, add_assoc]

theorem noReset_of_succ (hs : s.noReset (k + 1)) : s.noReset k := fun c hc =>
  hs c (List.take_subset_take_left _ (Nat.le_succ k) hc)

end

end Sys2Proof.Machine
end

section
/-! SUPPORT and the settled statements of 40_decoder_fsm.md about sequences of samples (R68 to R71). -/

namespace Sys2Proof.Machine

/-! Runs of presented good STEPs. -/

section
variable {s : State} {xs : List Sample}

theorem cycles_of_goodSteps {w : Nat} {cs : List (Cycle w)}
    (h : cs.map (fun c => (c.rst, decode c.cmd)) = (goodSteps xs).map (fun i => (false, i))) :
    (∀ c ∈ cs, c.rst = false) ∧ (∀ c ∈ cs, decode c.cmd ≠ .setcnt) ∧ samplesOf cs = xs := by
  induction xs generalizing cs with
  | nil => simp_all [goodSteps]
  | cons x xs ih =>
    obtain ⟨c, cs, rfl, hc, hcs⟩ := List.map_eq_cons_iff.1 h
    obtain ⟨hr, hd⟩ := Prod.mk.inj hc
    obtain ⟨hrs, hds, hxs⟩ := ih hcs
    refine ⟨List.forall_mem_cons.2 ⟨hr, hrs⟩, List.forall_mem_cons.2 ⟨by simp [hd], hds⟩, ?_⟩
    rw [samplesOf_cons, Cycle.sample?_eq_some.2 ⟨hr, hd⟩, hxs]; rfl

/-- A presented sequence of good STEPs is a stretch without reset and SETCNT, with these samples. -/
theorem presents_goodSteps (hs : s.presents (goodSteps xs)) :
    s.noReset xs.length ∧ s.noSetcnt xs.length ∧ samplesOf (s.inputs.take xs.length) = xs := by
  have hlen : (goodSteps xs).length = xs.length := List.length_map _
  have h := cycles_of_goodSteps hs
  rwa [hlen] at h

theorem eventsOf_codes_of_presents (hs : s.presents (goodSteps xs)) :
    (eventsOf xs.length s).map Prod.fst = directionCodes s.state xs := by
  obtain ⟨hr, -, hxs⟩ := presents_goodSteps hs
  rw [eventsOf_codes hr, hxs]

/-- The last STEP of a presented sequence runs in the state the decoder reaches over the samples before it. -/
theorem run_presents_last {x : Sample} (hs : s.presents (goodSteps (xs ++ [x]))) :
    ∃ u, Host.Core.run core xs.length s = .next u ∧ u.state = decoderRun s.state xs ∧
      step u = .next (decodeAndUpdate u x).advance := by
  induction xs generalizing s with
  | nil => exact ⟨s, rfl, rfl, (step_presents_goodSteps hs).1⟩
  | cons y ys ih =>
    obtain ⟨hy, hp⟩ := step_presents_goodSteps hs
    obtain ⟨u, hrun, hu, hlast⟩ := ih hp
    rw [State.advance_state, decodeAndUpdate_state] at hu
    exact ⟨u, (run_succ_of_step hy).trans hrun, hu, hlast⟩

/-- Five STEPs that begin and end with sample 00: the fifth runs in the state the three between lead to from START
(R69). -/
theorem run_zero_three_zero {a b c : Sample} (hs : s.presents (goodSteps [0, a, b, c, 0])) :
    ∃ u, u.state = decoderRun .start [a, b, c] ∧ Host.Core.run core 5 s = .next (decodeAndUpdate u 0).advance := by
  obtain ⟨u, hrun, hu, hlast⟩ := run_presents_last (xs := [0, a, b, c]) hs
  exact ⟨u, by rw [hu, decoderRun_zero_cons], (run_succ_last hrun hlast).1⟩

end

/-- After any steps from START without a reset, a pulse ends four samples in a row that are a whole sequence
(R70, R71). -/
theorem samples_of_pulse {s t u : State} {k : Nat} (hstart : s.state = .start) (hs : s.noReset k)
    (h : Host.Core.run core k s = .next u) (hu : step u = .next t) (hp : t.out.pulse = true) :
    [1, 3, 2, 0] <:+ samplesOf (s.inputs.take (k + 1)) ∨ [2, 3, 1, 0] <:+ samplesOf (s.inputs.take (k + 1)) := by
  obtain ⟨-, -, hsam⟩ := run_succ_last h hu
  obtain ⟨x, hx, rfl⟩ := step_sample_of_pulse hu hp
  obtain ⟨hfinal, rfl⟩ := (decodeAndUpdate_pulse_iff_cell u x).1 hp
  rw [hsam, hx]
  rw [run_state hs h, hstart, decoderRun_eq_cwFinal_iff, decoderRun_eq_ccwFinal_iff] at hfinal
  rcases hfinal with ⟨ys, hys, -⟩ | ⟨ys, hys, -⟩ <;> rw [hys]
  · exact .inl ⟨ys, by simp⟩
  · exact .inr ⟨ys, by simp⟩

/-! Whole cycles from START (R68): the four samples of a cycle come back to START with one event, on the last. -/

section
variable {a b c : Sample} {code : BitVec 2}

theorem decoderRun_cycles (hback : decoderRun .start [a, b, c, 0] = .start) (n : Nat) :
    decoderRun .start (List.replicate n [a, b, c, 0]).flatten = .start := by
  induction n with
  | zero => rfl
  | succ n ih => rw [List.replicate_succ, List.flatten_cons, decoderRun_append, hback, ih]

theorem directionCodes_cycles (hback : decoderRun .start [a, b, c, 0] = .start)
    (hcode : directionCodes .start [a, b, c, 0] = [code]) (n : Nat) :
    directionCodes .start (List.replicate n [a, b, c, 0]).flatten = List.replicate n code := by
  induction n with
  | zero => rfl
  | succ n ih =>
    rw [List.replicate_succ, List.flatten_cons, directionCodes_append, hback, ih, hcode, List.replicate_succ]; rfl

/-- Where the last STEP emits, the events before it are all but the last. -/
theorem eventsOf_eq_dropLast {s u t : State} {k : Nat} (h : Host.Core.run core k s = .next u) (hu : step u = .next t)
    (hp : t.out.pulse = true) : eventsOf k s = (eventsOf (k + 1) s).dropLast := by
  obtain ⟨-, hev, -⟩ := run_succ_last h hu
  rw [hev]
  simp [State.event, hp]

/-- The last of these events is emitted by the last STEP. -/
theorem eventsOf_cycles_last {s : State} (hstart : s.state = .start)
    (hback : decoderRun .start [a, b, c, 0] = .start)
    (hfinal : decoderRun .start [a, b, c] = .cwFinal ∨ decoderRun .start [a, b, c] = .ccwFinal) (n : Nat)
    (hs : s.presents (goodSteps (List.replicate n [a, b, c, 0]).flatten)) :
    eventsOf (4 * n - 1) s = (eventsOf (4 * n) s).dropLast := by
  cases n with
  | zero => rfl
  | succ n =>
    have hcut : (List.replicate (n + 1) [a, b, c, 0]).flatten =
        (List.replicate n [a, b, c, 0]).flatten ++ [a, b, c] ++ [0] := by
      rw [List.replicate_succ', List.flatten_append]; simp
    rw [hcut] at hs
    obtain ⟨u, hrun, hu, hlast⟩ := run_presents_last hs
    rw [hstart, decoderRun_append, decoderRun_cycles hback] at hu
    have hlen : ((List.replicate n [a, b, c, 0]).flatten ++ [a, b, c]).length = 4 * n + 3 := by simp; omega
    rw [hlen] at hrun
    exact eventsOf_eq_dropLast hrun hlast ((decodeAndUpdate_pulse_iff_cell u 0).2 ⟨hu ▸ hfinal, rfl⟩)

/-- Whole cycles from START end in START, with one event each. -/
theorem run_cycles {s : State} (hstart : s.state = .start)
    (hback : decoderRun .start [a, b, c, 0] = .start) (hcode : directionCodes .start [a, b, c, 0] = [code]) (n : Nat)
    (hs : s.presents (goodSteps (List.replicate n [a, b, c, 0]).flatten)) :
    ∃ t, Host.Core.run core (4 * n) s = .next t ∧ t.state = .start ∧
      t.count.toInt = (s.count.toInt + netCount (eventsOf (4 * n) s)).bmod (2 ^ s.cfg.cntW) ∧
      (eventsOf (4 * n) s).map Prod.fst = List.replicate n code := by
  have hlen : (List.replicate n [a, b, c, 0]).flatten.length = 4 * n := by simp; omega
  obtain ⟨hr, hc, hsam⟩ := presents_goodSteps hs
  have hcodes := eventsOf_codes_of_presents hs
  rw [hlen] at hr hc hsam hcodes
  obtain ⟨t, ht⟩ := run_completes (4 * n) s
  refine ⟨t, ht, ?_, run_count_toInt hr hc ht, ?_⟩
  · rw [run_state hr ht, hsam, hstart, decoderRun_cycles hback]
  · rw [hcodes, hstart, directionCodes_cycles hback hcode]

end

/-- Settles O42: sample 00 leads to START from every state, and from START the three samples between lead to the
FINAL state in which it emits. -/
theorem sampleZeroSynchronises : Obligations.SampleZeroSynchronises := by
  refine ⟨fun s => ⟨_, rfl, ?_, ?_, ?_, ?_⟩, fun s hs => ?_, fun s hs => ?_⟩
  · rw [decodeAndUpdate_state, decoderStep_sample_zero]
  · exact (decodeAndUpdate_dir_eq_one_iff s 0).trans (and_iff_left rfl)
  · exact (decodeAndUpdate_dir_eq_two_iff s 0).trans (and_iff_left rfl)
  · exact (decodeAndUpdate_pulse_iff_cell s 0).trans (and_iff_left rfl)
  · obtain ⟨u, hu, hrun⟩ := run_zero_three_zero hs
    exact ⟨_, hrun, (decodeAndUpdate_state u 0).trans (decoderStep_sample_zero _),
      (decodeAndUpdate_pulse_iff_cell u 0).2 ⟨.inl hu, rfl⟩, (decodeAndUpdate_dir_eq_one_iff u 0).2 ⟨hu, rfl⟩⟩
  · obtain ⟨u, hu, hrun⟩ := run_zero_three_zero hs
    exact ⟨_, hrun, (decodeAndUpdate_state u 0).trans (decoderStep_sample_zero _),
      (decodeAndUpdate_pulse_iff_cell u 0).2 ⟨.inr hu, rfl⟩, (decodeAndUpdate_dir_eq_two_iff u 0).2 ⟨hu, rfl⟩⟩

/-- Settles O43: each cycle comes back to START with one event on its last STEP, and the count moves by the balance
of the events. -/
theorem cyclesCountOneEach : Obligations.CyclesCountOneEach := by
  refine ⟨fun n s hstart hs => ?_, fun n s hstart hs => ?_, fun s hstart => ?_⟩
  · obtain ⟨t, ht, hstate, hcount, hcodes⟩ := run_cycles (code := 1) hstart (by decide) (by decide) n hs
    have hnet : netCount (eventsOf (4 * n) s) = n := by simp [netCount_eq_count, hcodes, List.count_replicate]
    rw [hnet] at hcount
    exact ⟨t, ht, hstate, hcount, hcodes, eventsOf_cycles_last hstart (by decide) (by decide) n hs⟩
  · obtain ⟨t, ht, hstate, hcount, hcodes⟩ := run_cycles (code := 2) hstart (by decide) (by decide) n hs
    have hnet : netCount (eventsOf (4 * n) s) = -n := by simp [netCount_eq_count, hcodes, List.count_replicate]
    rw [hnet] at hcount
    exact ⟨t, ht, hstate, hcount, hcodes, eventsOf_cycles_last hstart (by decide) (by decide) n hs⟩
  · rw [exec_step_false, decodeAndUpdate_of_deviation (by rw [hstart]; decide), ← hstart]

/-- Settles O46: the two FINAL states are reached by their three samples from START only, and sample 00 there is the
only way to a pulse. -/
theorem pulseNeedsTheWholeSequence : Obligations.PulseNeedsTheWholeSequence := by
  refine ⟨fun s t x h => ?_, fun k s hstart hs => ?_⟩
  · rw [eq_decodeAndUpdate_of_exec_step h]
    exact ⟨decodeAndUpdate_dir_eq_one_iff s x, decodeAndUpdate_dir_eq_two_iff s x⟩
  · obtain ⟨t, ht⟩ := run_completes k s
    refine ⟨t, ht, ?_⟩
    rw [run_state hs ht, hstart]
    exact ⟨decoderRun_eq_cwFinal_iff _, decoderRun_eq_ccwFinal_iff _⟩

/-- Settles O47: a deviation goes to START, from where three samples complete nothing, and a FINAL state has the
three samples of its sequence behind it. -/
theorem disturbedCycleIsLost : Obligations.DisturbedCycleIsLost := by
  refine ⟨fun s x a b c hne hx hs => ?_, fun s hstart hs => ?_, fun k s hstart hs => ?_⟩
  · have hdev : (s.state, x) ∉ sequenceCells := by simp_all [sequenceCells]
    exact List.map_eq_nil_iff.1 ((eventsOf_codes_of_presents hs).trans (directionCodes_of_deviation hdev a b c))
  · have hcodes := eventsOf_codes_of_presents hs
    rw [hstart] at hcodes
    exact List.map_eq_nil_iff.1 hcodes
  · cases k with
    | zero => exact ⟨s, rfl, fun h => absurd h (by decide)⟩
    | succ k =>
      obtain ⟨u, hrun⟩ := run_completes k s
      obtain ⟨t, ht⟩ := step_completes u
      exact ⟨t, (run_succ_last hrun ht).1, fun _ => samples_of_pulse hstart (noReset_of_succ hs) hrun ht⟩

end Sys2Proof.Machine
end

section
/-! SUPPORT and the settled statements of 41_counter_rotation.md about one operation of the counter family: the words
of SETCNT, RDCNT, RDPPR and RDROT, and what each leaves in the registers and on the ports. -/

namespace Sys2Proof.Machine

/-! The words of the family, by the operation field. -/

theorem decode_of_opField_two {w : CommandWord} (h : opField w = 2) : decode w = .setcnt := by
  simp [decode, h]

theorem decode_of_opField_three {w : CommandWord} (h : opField w = 3) : decode w = .rdcnt := by
  simp [decode, h]

theorem decode_of_opField_four {w : CommandWord} (h : opField w = 4) : decode w = .rdppr := by
  simp [decode, h]

theorem decode_of_opField_five {w : CommandWord} (h : opField w = 5) : decode w = .rdrot := by
  simp [decode, h]

/-! The parameters of a legal configuration (R3, R5). -/

theorem Config.valid_iff (c : Config) :
    c.valid = true ↔ (2 ≤ c.cntW ∧ c.cntW ≤ 64) ∧ 1 ≤ c.ppr ∧ c.ppr ≤ 2 ^ (c.cntW - 1) - 1 := by
  simp [Config.valid, Config.widthAllowed, Config.pprAllowed]

/-- A legal `PPR` fits 63 bits (R5). -/
theorem Config.ppr_bounds {c : Config} (h : c.valid = true) : 1 ≤ c.ppr ∧ c.ppr < 2 ^ 63 := by
  obtain ⟨⟨-, hw⟩, hpos, hle⟩ := (Config.valid_iff c).1 h
  have hpow : (2 : Int) ^ (c.cntW - 1) ≤ 2 ^ 63 := pow_le_pow_right₀ (by norm_num) (by omega)
  exact ⟨hpos, by omega⟩

/-- The port carries a legal `PPR` as it is: 64 bits hold it (R85). -/
theorem pprData_toNat {c : Config} (h : c.valid = true) : ((pprData c.ppr).toNat : Int) = c.ppr := by
  obtain ⟨hpos, hlt⟩ := Config.ppr_bounds h
  rw [pprData, BitVec.toNat_ofNat, Nat.mod_eq_of_lt (by omega)]
  omega

/-- Settles O4: the eight words of code 2 decode to SETCNT, whose next state is written out in the model. -/
theorem setcntLoadsCount : Obligations.SetcntLoadsCount :=
  ⟨fun _ => decode_of_opField_two, by decide, fun _ => rfl⟩

/-- Settles O5: extending the sign to 64 bits keeps the integer at every width that fits. -/
theorem rdcntReturnsCount : Obligations.RdcntReturnsCount :=
  ⟨fun _ => decode_of_opField_three, by decide,
    fun _ => ⟨rfl, fun hw => BitVec.toInt_signExtend_of_le hw⟩⟩

/-- Settles O6: the value is the constant `PPR`, which 64 bits hold and which is at least 1. -/
theorem rdpprReturnsConstant : Obligations.RdpprReturnsConstant := by
  refine ⟨fun _ => decode_of_opField_four, by decide, fun s => ⟨pprData s.cfg.ppr, rfl, fun h => ?_⟩⟩
  have hval := pprData_toNat h
  have hpos := (Config.ppr_bounds h).1
  refine ⟨hval, fun h0 => ?_⟩
  simp [h0] at hval
  omega

end Sys2Proof.Machine
end

section
/-! SUPPORT and the settled statements of 41_counter_rotation.md about the count: where it wraps (R81), and that the
next read and the next event see a count just set (R90). -/

namespace Sys2Proof.Machine

/-! One up and one down at the ends of the range and away from them. -/

section
variable {w : Nat} {c : BitVec w}

theorem two_mul_two_pow_pred (hw : 0 < w) : (2 : Int) * 2 ^ (w - 1) = 2 ^ w := by
  rw [← pow_succ', Nat.sub_add_cancel hw]

/-- A number of the range is its own residue. -/
theorem bmod_eq_self_of_range {x : Int} (hw : 0 < w) (hlo : -2 ^ (w - 1) ≤ x) (hhi : x < 2 ^ (w - 1)) :
    x.bmod (2 ^ w) = x := by
  have h2 := two_mul_two_pow_pred hw
  apply Int.bmod_eq_of_le_mul_two <;> push_cast <;> omega

theorem toInt_add_one_of_ne_max (hw : 0 < w) (h : c.toInt ≠ 2 ^ (w - 1) - 1) : (c + 1).toInt = c.toInt + 1 := by
  have hlo := c.le_toInt
  have hhi := c.toInt_lt
  rw [toInt_add_one, bmod_eq_self_of_range hw] <;> omega

theorem toInt_sub_one_of_ne_min (hw : 0 < w) (h : c.toInt ≠ -2 ^ (w - 1)) : (c - 1).toInt = c.toInt - 1 := by
  have hlo := c.le_toInt
  have hhi := c.toInt_lt
  rw [toInt_sub_one, bmod_eq_self_of_range hw] <;> omega

/-- The largest count plus 1 is the smallest, one whole range below (R81). -/
theorem toInt_add_one_of_max (hw : 0 < w) (h : c.toInt = 2 ^ (w - 1) - 1) : (c + 1).toInt = -2 ^ (w - 1) := by
  have hcast : ((2 ^ w : Nat) : Int) = 2 * 2 ^ (w - 1) := by rw [two_mul_two_pow_pred hw]; push_cast; rfl
  have hpos : (0 : Int) < 2 ^ (w - 1) := by positivity
  calc (c + 1).toInt = (2 ^ (w - 1) - ((2 ^ w : Nat) : Int)).bmod (2 ^ w) := by
        rw [toInt_add_one, h, Int.sub_add_cancel, Int.sub_bmod_right]
    _ = (-2 ^ (w - 1) : Int).bmod (2 ^ w) := by rw [hcast]; ring_nf
    _ = -2 ^ (w - 1) := bmod_eq_self_of_range hw le_rfl (by omega)

/-- The smallest count minus 1 is the largest, one whole range above (R81). -/
theorem toInt_sub_one_of_min (hw : 0 < w) (h : c.toInt = -2 ^ (w - 1)) : (c - 1).toInt = 2 ^ (w - 1) - 1 := by
  have hcast : ((2 ^ w : Nat) : Int) = 2 * 2 ^ (w - 1) := by rw [two_mul_two_pow_pred hw]; push_cast; rfl
  have hpos : (0 : Int) < 2 ^ (w - 1) := by positivity
  calc (c - 1).toInt = (-2 ^ (w - 1) - 1 + ((2 ^ w : Nat) : Int)).bmod (2 ^ w) := by
        rw [toInt_sub_one, h, Int.add_bmod_right]
    _ = (2 ^ (w - 1) - 1 : Int).bmod (2 ^ w) := by rw [hcast]; ring_nf
    _ = 2 ^ (w - 1) - 1 := bmod_eq_self_of_range hw (by omega) (by omega)

end

/-- Settles O35: sample 00 counts up from CW_FINAL and down from CCW_FINAL, and the count is a wrapping word of
`CNT_W` bits. -/
theorem countWraps : Obligations.CountWraps := by
  intro s hvalid
  obtain ⟨⟨hw, -⟩, -⟩ := (Config.valid_iff s.cfg).1 hvalid
  have hpos : 0 < s.cfg.cntW := by omega
  refine ⟨fun hs => ⟨_, exec_step_false s 0, (decodeAndUpdate_no_report s 0).1, ?_⟩,
    fun hs => ⟨_, exec_step_false s 0, (decodeAndUpdate_no_report s 0).1, ?_⟩⟩
  · rw [decodeAndUpdate_of_clockwise (decoderStep_clockwise_iff_cell.2 ⟨hs, rfl⟩)]
    exact ⟨rfl, toInt_add_one_of_max hpos, toInt_add_one_of_ne_max hpos⟩
  · rw [decodeAndUpdate_of_counterClockwise (decoderStep_counterClockwise_iff_cell.2 ⟨hs, rfl⟩)]
    exact ⟨rfl, toInt_sub_one_of_min hpos, toInt_sub_one_of_ne_min hpos⟩

/-! The first event of a run. -/

/-- What an event emitted from the count `n` of `w` bits shows: a direction, and the count moved that way (R95). -/
def countsFrom (w : Nat) (n : Int) (e : BitVec 2 × Int) : Prop :=
  e = (1, (n + 1).bmod (2 ^ w)) ∨ e = (2, (n - 1).bmod (2 ^ w))

theorem decodeAndUpdate_event_cases (s : State) (x : Sample) :
    ((decodeAndUpdate s x).event = none ∧ (decodeAndUpdate s x).count.toInt = s.count.toInt) ∨
    ∃ e, (decodeAndUpdate s x).event = some e ∧ countsFrom s.cfg.cntW s.count.toInt e := by
  rcases decodeAndUpdate_cases s x with ⟨-, h⟩ | ⟨-, h⟩ | ⟨-, h⟩ <;> rw [h]
  · exact .inl ⟨rfl, rfl⟩
  · exact .inr ⟨_, rfl, .inl (by rw [← toInt_add_one]; rfl)⟩
  · exact .inr ⟨_, rfl, .inr (by rw [← toInt_sub_one]; rfl)⟩

/-- Without reset and SETCNT a step keeps the count or emits an event that counts from it. -/
theorem step_event_cases {s t : State} (h : step s = .next t) (hr : s.cycle.rst = false)
    (hc : decode s.cycle.cmd ≠ .setcnt) :
    (t.event = none ∧ t.count.toInt = s.count.toInt) ∨
    ∃ e, t.event = some e ∧ countsFrom s.cfg.cntW s.count.toInt e := by
  rcases step_sample_cases h hr with ⟨x, -, rfl⟩ | ⟨-, -, hp, hcount⟩
  · exact decodeAndUpdate_event_cases s x
  · exact .inl ⟨State.event_of_not_pulse hp, hcount hc⟩

/-- Without reset and SETCNT the first event counts from the count at the start: the steps before it keep the count
(R82, R90). -/
theorem eventsOf_head {s : State} {k : Nat} {e : BitVec 2 × Int} {es : List (BitVec 2 × Int)} (hs : s.noReset k)
    (hc : s.noSetcnt k) (h : eventsOf k s = e :: es) : countsFrom s.cfg.cntW s.count.toInt e := by
  induction k generalizing s with
  | zero => cases h
  | succ k ih =>
    obtain ⟨t, ht⟩ := step_completes s
    obtain ⟨hr, hn⟩ := step_noReset ht hs
    obtain ⟨hd, hm⟩ := step_noSetcnt ht hc
    rw [eventsOf_succ_of_step ht] at h
    rcases step_event_cases ht hr hd with ⟨hev, hcount⟩ | ⟨e', hev, he'⟩ <;> rw [hev] at h
    · have he := ih hn hm h
      rwa [hcount, step_cfg ht] at he
    · obtain ⟨rfl, -⟩ := List.cons.inj h
      exact he'

/-- Settles O36: SETCNT leaves its operand in `count`, which RDROT reads and from which the first event counts. -/
theorem setIsSeenAtOnce : Obligations.SetIsSeenAtOnce := by
  intro s t hr hd h
  have hstep : step s = .next _ := step_of_exec hr (by rw [hd]; rfl)
  cases h.symm.trans hstep
  exact ⟨⟨_, rfl, rfl⟩, fun k e es hs hc => eventsOf_head hs hc⟩

end Sys2Proof.Machine
end

section
/-! SUPPORT and the settled statements of 41_counter_rotation.md about the rotations value (R87 to R89).  The finite
words of a format are in the order of the numbers they stand for; `rot` is one of the two next to the quotient. -/

namespace Sys2Proof.Machine

/-! What a word of a format stands for: a sign and a magnitude. -/

/-- The number of the exponent and fraction fields `n`, taken as one number (G2). -/
def magnitudeValue (f : RotFormat) (n : Nat) : ℚ :=
  if n / 2 ^ fractionBits f = 0 then
    (n % 2 ^ fractionBits f : Nat) * 2 ^ (1 - exponentBias f - fractionBits f : ℤ)
  else
    (2 ^ fractionBits f + (n % 2 ^ fractionBits f : Nat)) *
      2 ^ ((n / 2 ^ fractionBits f : Nat) - exponentBias f - fractionBits f : ℤ)

/-- The sign of a word (G2). -/
def wordSign (f : RotFormat) (b : ReadData) : ℚ :=
  if b.toNat / 2 ^ (exponentBits f + fractionBits f) % 2 = 1 then -1 else 1

theorem wordSign_cases (f : RotFormat) (b : ReadData) : wordSign f b = 1 ∨ wordSign f b = -1 := by
  unfold wordSign
  split
  · exact .inr rfl
  · exact .inl rfl

theorem floatValue_eq (f : RotFormat) (b : ReadData) :
    floatValue f b = wordSign f b * magnitudeValue f (b.toNat % 2 ^ (exponentBits f + fractionBits f)) := by
  have hexp : b.toNat % 2 ^ (exponentBits f + fractionBits f) / 2 ^ fractionBits f =
      b.toNat / 2 ^ fractionBits f % 2 ^ exponentBits f := by
    rw [add_comm, pow_add, Nat.mod_mul_right_div_self]
  have hfrac : b.toNat % 2 ^ (exponentBits f + fractionBits f) % 2 ^ fractionBits f = b.toNat % 2 ^ fractionBits f := by
    rw [add_comm, pow_add, Nat.mod_mul_right_mod]
  unfold floatValue magnitudeValue
  rw [hexp, hfrac]
  simp only [wordSign]
  split_ifs <;> simp only [mul_assoc]

/-- The fields as significand units above a row of exponents: the subnormal rows, and every row whose significand has
its leading 1.  Units that reach the next power of two stand for the first number of the next row. -/
theorem magnitudeValue_of_units (f : RotFormat) {k u : Nat} (hk : k = 0 ∨ 2 ^ fractionBits f ≤ u)
    (hu : u ≤ 2 ^ (fractionBits f + 1)) :
    magnitudeValue f (k * 2 ^ fractionBits f + u) = u * 2 ^ (k + 1 - exponentBias f - fractionBits f : ℤ) := by
  have hpos : 0 < 2 ^ fractionBits f := by positivity
  rw [pow_succ'] at hu
  have hfields : ∀ e r, k * 2 ^ fractionBits f + u = 2 ^ fractionBits f * e + r → r < 2 ^ fractionBits f →
      (k * 2 ^ fractionBits f + u) / 2 ^ fractionBits f = e ∧ (k * 2 ^ fractionBits f + u) % 2 ^ fractionBits f = r :=
    fun e r h hr => by rw [h, Nat.mul_add_div hpos, Nat.div_eq_of_lt hr, Nat.mul_add_mod, Nat.mod_eq_of_lt hr]; simp
  unfold magnitudeValue
  rcases Nat.lt_or_ge u (2 ^ fractionBits f) with hlt | hge
  · obtain rfl : k = 0 := hk.resolve_right (by omega)
    obtain ⟨he, hr⟩ := hfields 0 u (by ring) hlt
    rw [he, hr, if_pos rfl]
    norm_num
  · rcases Nat.lt_or_eq_of_le hu with hlt | rfl
    · obtain ⟨he, hr⟩ := hfields (k + 1) (u - 2 ^ fractionBits f) (by rw [mul_add, mul_comm k]; omega) (by omega)
      rw [he, hr, if_neg (by omega), Nat.cast_sub hge]
      push_cast
      ring
    · obtain ⟨he, hr⟩ := hfields (k + 2) 0 (by ring) hpos
      rw [he, hr, if_neg (by omega),
        show ((k + 2 : Nat) - exponentBias f - fractionBits f : ℤ) = (k + 1 - exponentBias f - fractionBits f) + 1 by
          push_cast; ring, zpow_add_one₀ two_ne_zero]
      push_cast
      ring

/-- The exponent and fraction fields are always units of a row, short of the next power of two. -/
theorem exists_row_units (f : RotFormat) (n : Nat) :
    ∃ k u, n = k * 2 ^ fractionBits f + u ∧ (k = 0 ∨ 2 ^ fractionBits f ≤ u) ∧ u < 2 ^ (fractionBits f + 1) := by
  have hdiv := Nat.div_add_mod' n (2 ^ fractionBits f)
  have hmod : n % 2 ^ fractionBits f < 2 ^ fractionBits f := Nat.mod_lt n (by positivity)
  rw [pow_succ']
  rcases h : n / 2 ^ fractionBits f with - | k <;> rw [h] at hdiv
  · exact ⟨0, n % 2 ^ fractionBits f, hdiv.symm, .inl rfl, by omega⟩
  · rw [Nat.succ_mul] at hdiv
    exact ⟨k, 2 ^ fractionBits f + n % 2 ^ fractionBits f, by omega, .inr (by omega), by omega⟩

/-- The next fields stand for the next number. -/
theorem magnitudeValue_strictMono (f : RotFormat) : StrictMono (magnitudeValue f) := by
  refine strictMono_nat_of_lt_succ fun n => ?_
  obtain ⟨k, u, rfl, hk, hu⟩ := exists_row_units f n
  rw [add_assoc, magnitudeValue_of_units f hk hu.le, magnitudeValue_of_units f (hk.imp_right Nat.le_succ_of_le) hu]
  exact mul_lt_mul_of_pos_right (by exact_mod_cast Nat.lt_succ_self u) (by positivity)

theorem magnitudeValue_zero (f : RotFormat) : magnitudeValue f 0 = 0 := by
  simp [magnitudeValue]

theorem magnitudeValue_nonneg (f : RotFormat) (n : Nat) : 0 ≤ magnitudeValue f n :=
  (magnitudeValue_zero f).symm.trans_le ((magnitudeValue_strictMono f).monotone n.zero_le)

/-- No word, of either sign, lies strictly between two neighbouring magnitudes. -/
theorem floatValue_gap (f : RotFormat) {σ : ℚ} (hσ : σ = 1 ∨ σ = -1) (b : ReadData) (n : Nat) :
    σ * floatValue f b ≤ magnitudeValue f n ∨ magnitudeValue f (n + 1) ≤ σ * floatValue f b := by
  have hmono := (magnitudeValue_strictMono f).monotone
  have hsign : σ * wordSign f b = 1 ∨ σ * wordSign f b = -1 := by
    rcases hσ with rfl | rfl <;> rcases wordSign_cases f b with h | h <;> simp [h]
  rw [floatValue_eq, ← mul_assoc]
  generalize b.toNat % 2 ^ (exponentBits f + fractionBits f) = k
  rcases hsign with h | h <;> rw [h]
  · rw [one_mul]
    exact (Nat.lt_or_ge n k).symm.imp (fun h => hmono h) (fun h => hmono h)
  · left
    linarith [magnitudeValue_nonneg f k, magnitudeValue_nonneg f n]

/-! Rounding to one of two neighbours. -/

/-- `r` is the one of two neighbours `lo` and `hi` of `x` that is nearer to it, and `even` on a tie (R88). -/
structure RoundsTo (lo x hi r : ℚ) (even : Prop) : Prop where
  lo_le : lo ≤ x
  lt_hi : x < hi
  nearer : r = lo ∧ x - lo ≤ hi - x ∨ r = hi ∧ hi - x ≤ x - lo
  tie : x - lo = hi - x → even

/-- Nothing outside the gap between the neighbours is nearer, and a number as near is the other neighbour. -/
theorem RoundsTo.nearest {lo x hi r v : ℚ} {even : Prop} (h : RoundsTo lo x hi r even) (hv : v ≤ lo ∨ hi ≤ v) :
    |r - x| ≤ |v - x| ∧ (|r - x| = |v - x| → v ≠ r → even) := by
  obtain ⟨hlo, hhi, hnear, htie⟩ := h
  have hvx : |v - x| = x - v ∧ v ≤ lo ∨ |v - x| = v - x ∧ hi ≤ v :=
    hv.imp (fun hv => ⟨by rw [abs_of_nonpos] <;> linarith, hv⟩) (fun hv => ⟨abs_of_nonneg (by linarith), hv⟩)
  have hrx : |r - x| = x - lo ∧ r = lo ∧ x - lo ≤ hi - x ∨ |r - x| = hi - x ∧ r = hi ∧ hi - x ≤ x - lo :=
    hnear.imp (fun ⟨hr, hle⟩ => ⟨by rw [hr, abs_of_nonpos (by linarith)]; ring, hr, hle⟩)
      (fun ⟨hr, hle⟩ => ⟨by rw [hr, abs_of_nonneg (by linarith)], hr, hle⟩)
  rcases hrx with ⟨hr, rfl, hle⟩ | ⟨hr, rfl, hle⟩ <;> rcases hvx with ⟨hv, hle'⟩ | ⟨hv, hle'⟩ <;> rw [hr, hv]
  · exact ⟨by linarith, fun he hne => absurd (by linarith) hne⟩
  · exact ⟨by linarith, fun he _ => htie (by linarith)⟩
  · exact ⟨by linarith, fun he _ => htie (by linarith)⟩
  · exact ⟨by linarith, fun he hne => absurd (by linarith) hne⟩

/-- Rounding compares the parts below a unit, `rest` and the part `ρ` of one that `tail` reports, with half a unit;
on a tie the units come out even (R88). -/
theorem roundUnits_compare {m rest drop : Nat} {tail : Bool} {ρ : ℚ} (hρ : 0 ≤ ρ) (hρ1 : ρ < 1)
    (htail : tail = true ↔ ρ ≠ 0) :
    (roundUnits m rest drop tail = m ∧ rest + ρ ≤ 2 ^ (drop - 1) ∨
      roundUnits m rest drop tail = m + 1 ∧ 2 ^ (drop - 1) ≤ rest + ρ) ∧
    (rest + ρ = 2 ^ (drop - 1) → roundUnits m rest drop tail % 2 = 0) := by
  have hexact : tail = false → ρ = 0 := fun h => by simpa [h] using htail
  rcases roundUnits_cases m rest drop tail with ⟨hu, hlt | ⟨rfl, ht, hm⟩⟩ | ⟨hu, hlt | ⟨rfl, hodd⟩⟩ <;> rw [hu]
  · have hle : (rest : ℚ) + 1 ≤ 2 ^ (drop - 1) := by exact_mod_cast hlt
    exact ⟨.inl ⟨rfl, by linarith⟩, fun h => absurd h (by linarith)⟩
  · rw [hexact ht]
    exact ⟨.inl ⟨rfl, by simp⟩, fun _ => hm⟩
  · have hle : (2 : ℚ) ^ (drop - 1) + 1 ≤ rest := by exact_mod_cast hlt
    exact ⟨.inr ⟨rfl, by linarith⟩, fun h => absurd h (by linarith)⟩
  · push_cast
    refine ⟨.inr ⟨rfl, by linarith⟩, fun h => ?_⟩
    have := hodd.resolve_left fun ht => htail.1 ht (by linarith)
    omega

/-- `roundUnits` rounds the number of `m` units, `rest` of the `2 ^ drop` parts of a unit and the part `ρ` of one such
part to a whole number of units; `ε` is the size of a part. -/
theorem roundUnits_roundsTo {m rest drop : Nat} {tail : Bool} {ρ ε : ℚ} (hdrop : 0 < drop) (hrest : rest < 2 ^ drop)
    (hρ : 0 ≤ ρ) (hρ1 : ρ < 1) (htail : tail = true ↔ ρ ≠ 0) (hε : 0 < ε) :
    RoundsTo (m * (2 ^ drop * ε)) ((m * 2 ^ drop + rest + ρ) * ε) ((m + 1 : Nat) * (2 ^ drop * ε))
      (roundUnits m rest drop tail * (2 ^ drop * ε)) (roundUnits m rest drop tail % 2 = 0) := by
  have hhalf : (2 : ℚ) ^ drop = 2 * 2 ^ (drop - 1) := by rw [← pow_succ', Nat.sub_add_cancel hdrop]
  have hle : (rest : ℚ) + 1 ≤ 2 ^ drop := by exact_mod_cast hrest
  obtain ⟨hnear, htie⟩ := roundUnits_compare (m := m) (rest := rest) (drop := drop) hρ hρ1 htail
  have hbelow : (m * 2 ^ drop + rest + ρ) * ε - m * (2 ^ drop * ε) = (rest + ρ) * ε := by ring
  have habove : ((m + 1 : Nat) * (2 ^ drop * ε) : ℚ) - (m * 2 ^ drop + rest + ρ) * ε = (2 ^ drop - (rest + ρ)) * ε := by
    push_cast; ring
  constructor
  · have : 0 ≤ (rest + ρ) * ε := by positivity
    linarith
  · have : 0 < (2 ^ drop - (rest + ρ)) * ε := mul_pos (by linarith) hε
    linarith
  · rw [hbelow, habove]
    refine hnear.imp (fun ⟨hu, h⟩ => ⟨by rw [hu], ?_⟩) (fun ⟨hu, h⟩ => ⟨by rw [hu], ?_⟩) <;>
      exact mul_le_mul_of_nonneg_right (by linarith) hε.le
  · rw [hbelow, habove]
    intro h
    have := mul_right_cancel₀ hε.ne' h
    exact htie (by linarith)

/-! The quotient with its 128 bits below the point. -/

/-- The quotient in parts of 2^-128, rounded down, as `rotMagnitude` computes it. -/
def quotientParts (a p : Nat) : Nat := a * 2 ^ quotientShift / p

/-- The bits of the quotient below its last significand unit. -/
def droppedBits (f : RotFormat) (a p : Nat) : Nat := Nat.log2 (quotientParts a p) - fractionBits f

/-- The significand units of the quotient, rounded down. -/
def floorUnits (f : RotFormat) (a p : Nat) : Nat := quotientParts a p / 2 ^ droppedBits f a p

/-- The significand units of the quotient, rounded to nearest, ties to even. -/
def roundedUnits (f : RotFormat) (a p : Nat) : Nat :=
  roundUnits (floorUnits f a p) (quotientParts a p % 2 ^ droppedBits f a p) (droppedBits f a p)
    (a * 2 ^ quotientShift % p != 0)

/-- The row of exponents the units stand above. -/
def exponentRow (f : RotFormat) (a p : Nat) : Nat :=
  Nat.log2 (quotientParts a p) + exponentBias f - quotientShift - 1

theorem rotMagnitude_eq (f : RotFormat) (a p : Nat) :
    rotMagnitude f a p = exponentRow f a p * 2 ^ fractionBits f + roundedUnits f a p := rfl

/-- The exact quotient: units, parts of a unit, and what the division leaves of a part. -/
theorem quotient_eq_parts (f : RotFormat) {a p : Nat} (hp : 1 ≤ p) :
    (a / p : ℚ) = (floorUnits f a p * 2 ^ droppedBits f a p + (quotientParts a p % 2 ^ droppedBits f a p : Nat) +
      (a * 2 ^ quotientShift % p : Nat) / p) * (2 ^ quotientShift)⁻¹ := by
  have hparts : (floorUnits f a p * 2 ^ droppedBits f a p + (quotientParts a p % 2 ^ droppedBits f a p : Nat) : ℚ) =
      quotientParts a p := by
    exact_mod_cast Nat.div_add_mod' (quotientParts a p) (2 ^ droppedBits f a p)
  have hdiv : (p * quotientParts a p + (a * 2 ^ quotientShift % p : Nat) : ℚ) = a * 2 ^ quotientShift := by
    exact_mod_cast Nat.div_add_mod (a * 2 ^ quotientShift) p
  have hpos : (0 : ℚ) < p := by exact_mod_cast hp
  rw [hparts]
  field_simp
  exact hdiv.symm

section
variable {a p : Nat} (ha : 1 ≤ a) (ha' : a ≤ 2 ^ 63) (hp : 1 ≤ p) (hp' : p < 2 ^ 63)
include ha ha' hp hp'

/-- A quotient of at least 2^-63 and at most 2^63 (R91). -/
theorem log2_quotientParts : 65 ≤ Nat.log2 (quotientParts a p) ∧ Nat.log2 (quotientParts a p) ≤ 191 := by
  have hlo : 2 ^ 65 ≤ quotientParts a p := by
    rw [quotientParts, Nat.le_div_iff_mul_le hp]
    calc 2 ^ 65 * p ≤ 2 ^ 65 * 2 ^ 63 := by gcongr
      _ = 1 * 2 ^ quotientShift := by decide
      _ ≤ a * 2 ^ quotientShift := by gcongr
  have hhi : quotientParts a p < 2 ^ 192 := by
    calc quotientParts a p ≤ a * 2 ^ quotientShift := Nat.div_le_self _ _
      _ ≤ 2 ^ 63 * 2 ^ quotientShift := by gcongr
      _ < 2 ^ 192 := by decide
  have hne : quotientParts a p ≠ 0 := by omega
  exact ⟨(Nat.le_log2 hne).2 hlo, Nat.lt_succ_iff.1 ((Nat.log2_lt hne).2 hhi)⟩

theorem droppedBits_eq (f : RotFormat) :
    0 < droppedBits f a p ∧ Nat.log2 (quotientParts a p) = droppedBits f a p + fractionBits f := by
  have hlo := (log2_quotientParts ha ha' hp hp').1
  unfold droppedBits
  cases f <;> simp only [fractionBits] <;> omega

/-- The floor has a leading 1 above the fraction. -/
theorem floorUnits_bounds (f : RotFormat) :
    2 ^ fractionBits f ≤ floorUnits f a p ∧ floorUnits f a p < 2 ^ (fractionBits f + 1) := by
  have hlo := (log2_quotientParts ha ha' hp hp').1
  have hne : quotientParts a p ≠ 0 := fun h => by rw [h, Nat.log2_zero] at hlo; omega
  have hlog := (droppedBits_eq ha ha' hp hp' f).2
  unfold floorUnits
  rw [Nat.le_div_iff_mul_le (by positivity), Nat.div_lt_iff_lt_mul (by positivity), ← pow_add, ← pow_add,
    ← Nat.le_log2 hne, ← Nat.log2_lt hne]
  omega

theorem roundedUnits_bounds (f : RotFormat) :
    2 ^ fractionBits f ≤ roundedUnits f a p ∧ roundedUnits f a p ≤ 2 ^ (fractionBits f + 1) := by
  obtain ⟨hlo, hhi⟩ := floorUnits_bounds ha ha' hp hp' f
  rcases roundUnits_cases (floorUnits f a p) (quotientParts a p % 2 ^ droppedBits f a p) (droppedBits f a p)
    (a * 2 ^ quotientShift % p != 0) with ⟨h, -⟩ | ⟨h, -⟩ <;> rw [roundedUnits, h] <;> omega

/-- The row leaves room below the reserved exponent (R91), and its units are `droppedBits` above a part of 2^-128. -/
theorem exponentRow_spec (f : RotFormat) :
    exponentRow f a p ≤ exponentBias f + 62 ∧
    (exponentRow f a p + 1 - exponentBias f - fractionBits f : ℤ) = droppedBits f a p - quotientShift := by
  obtain ⟨hlo, hhi⟩ := log2_quotientParts ha ha' hp hp'
  have hlog := (droppedBits_eq ha ha' hp hp' f).2
  unfold exponentRow quotientShift
  cases f <;> simp only [exponentBias, fractionBits] at hlog ⊢ <;> omega

/-- The size of a unit in this row: 2 ^ `droppedBits` parts of 2^-128. -/
theorem magnitudeValue_exponentRow (f : RotFormat) {u : Nat} (hlo : 2 ^ fractionBits f ≤ u)
    (hhi : u ≤ 2 ^ (fractionBits f + 1)) :
    magnitudeValue f (exponentRow f a p * 2 ^ fractionBits f + u) =
      u * (2 ^ droppedBits f a p * (2 ^ quotientShift)⁻¹) := by
  rw [magnitudeValue_of_units f (.inr hlo) hhi, (exponentRow_spec ha ha' hp hp' f).2,
    zpow_sub₀ two_ne_zero, zpow_natCast, zpow_natCast, div_eq_mul_inv]

/-- `rotMagnitude` is the rounding of the quotient between two neighbouring magnitudes, an even fraction on a tie
(R88). -/
theorem rotMagnitude_roundsTo (f : RotFormat) :
    ∃ n, RoundsTo (magnitudeValue f n) (a / p : ℚ) (magnitudeValue f (n + 1))
      (magnitudeValue f (rotMagnitude f a p)) (rotMagnitude f a p % 2 = 0) := by
  obtain ⟨hlo, hhi⟩ := floorUnits_bounds ha ha' hp hp' f
  obtain ⟨hrlo, hrhi⟩ := roundedUnits_bounds ha ha' hp hp' f
  have hpos : (0 : ℚ) < p := by exact_mod_cast hp
  have hmod : ((a * 2 ^ quotientShift % p : Nat) : ℚ) < p := by exact_mod_cast Nat.mod_lt _ hp
  have heven : rotMagnitude f a p % 2 = roundedUnits f a p % 2 := by
    rw [rotMagnitude_eq]
    cases f <;> simp only [fractionBits] <;> omega
  refine ⟨exponentRow f a p * 2 ^ fractionBits f + floorUnits f a p, ?_⟩
  rw [heven, rotMagnitude_eq, add_assoc, quotient_eq_parts f hp,
    magnitudeValue_exponentRow ha ha' hp hp' f hlo hhi.le, magnitudeValue_exponentRow ha ha' hp hp' f hrlo hrhi,
    magnitudeValue_exponentRow ha ha' hp hp' f (by omega) hhi]
  exact roundUnits_roundsTo (droppedBits_eq ha ha' hp hp' f).1 (Nat.mod_lt _ (by positivity))
    (div_nonneg (Nat.cast_nonneg _) hpos.le) ((div_lt_one hpos).2 hmod) (by simp [hpos.ne']) (by positivity)

/-- The fields of a quotient are those of a normal number (R91). -/
theorem rotMagnitude_bounds (f : RotFormat) :
    2 ^ fractionBits f ≤ rotMagnitude f a p ∧
    rotMagnitude f a p < (2 ^ exponentBits f - 1) * 2 ^ fractionBits f := by
  obtain ⟨hrlo, hrhi⟩ := roundedUnits_bounds ha ha' hp hp' f
  obtain ⟨hrow, -⟩ := exponentRow_spec ha ha' hp hp' f
  rw [rotMagnitude_eq]
  cases f <;> simp only [fractionBits, exponentBits, exponentBias] at * <;> omega

end

/-! The sign of a count, as a factor. -/

theorem cast_sign_cases {c : Int} (h : c ≠ 0) : (c.sign : ℚ) = 1 ∨ (c.sign : ℚ) = -1 := by
  rcases lt_or_gt_of_ne h with h | h
  · exact .inr (by rw [Int.sign_eq_neg_one_of_neg h]; simp)
  · exact .inl (by rw [Int.sign_eq_one_of_pos h]; simp)

/-- The sign of a nonzero count, twice, is no change. -/
theorem sign_mul_sign_mul {c : Int} (h : c ≠ 0) (v : ℚ) : (c.sign : ℚ) * (c.sign * v) = v := by
  rcases cast_sign_cases h with h | h <;> rw [h] <;> ring

/-- How far a number is from the quotient, seen with the sign of the count. -/
theorem abs_sub_quotient {c : Int} (h : c ≠ 0) (p : Nat) (v : ℚ) :
    |v - (c : ℚ) / p| = |c.sign * v - (c.natAbs / p : ℚ)| := by
  have habs : |(c.sign : ℚ)| = 1 := by rcases cast_sign_cases h with h | h <;> rw [h] <;> norm_num
  have hquot : (c : ℚ) / p = c.sign * (c.natAbs / p : ℚ) := by
    have hcast : ((c.sign * c.natAbs : ℤ) : ℚ) = c := by rw [Int.sign_mul_natAbs]
    rw [← hcast, Int.cast_mul, Int.cast_natCast, mul_div_assoc]
  calc |v - (c : ℚ) / p| = |(c.sign : ℚ)| * |v - (c : ℚ) / p| := by rw [habs, one_mul]
    _ = |c.sign * v - (c.natAbs / p : ℚ)| := by rw [← abs_mul, mul_sub, hquot, sign_mul_sign_mul h]

/-! The word of `rot`. -/

section
variable {c : Int} {p : Nat} (hc : c.natAbs ≤ 2 ^ 63) (hp : 1 ≤ p) (hp' : p < 2 ^ 63)
include hc hp hp'

/-- The sign bit and the fields, which fit the word beside it (R53). -/
theorem rot_toNat (f : RotFormat) (h0 : c ≠ 0) :
    (rot f c p).toNat = (if c < 0 then 2 ^ (exponentBits f + fractionBits f) else 0) + rotMagnitude f c.natAbs p := by
  have hlt := (rotMagnitude_bounds (by omega) hc hp hp' f).2
  rw [rot, if_neg h0, BitVec.toNat_ofNat]
  refine Nat.mod_eq_of_lt ?_
  cases f <;> simp only [fractionBits, exponentBits] at * <;> split <;> omega

/-- A finite word (R91). -/
theorem rot_isFinite (f : RotFormat) : isFinite f (rot f c p) := by
  rcases eq_or_ne c 0 with rfl | h0
  · rw [rot_zero]
    cases f <;> decide
  · have hlt := (rotMagnitude_bounds (by omega) hc hp hp' f).2
    rw [isFinite, rot_toNat hc hp hp' f h0]
    cases f <;> simp only [fractionBits, exponentBits] at * <;> split <;> omega

/-- The last fraction bit is that of the magnitude. -/
theorem rot_mod_two (f : RotFormat) (h0 : c ≠ 0) : (rot f c p).toNat % 2 = rotMagnitude f c.natAbs p % 2 := by
  rw [rot_toNat hc hp hp' f h0]
  cases f <;> simp only [fractionBits, exponentBits] <;> split <;> omega

/-- The number of the word: the sign of the count and the rounded magnitude. -/
theorem floatValue_rot (f : RotFormat) :
    floatValue f (rot f c p) = c.sign * magnitudeValue f (rotMagnitude f c.natAbs p) := by
  rcases eq_or_ne c 0 with rfl | h0
  · rw [rot_zero, floatValue_eq]
    simp [magnitudeValue_zero]
  · have hlt := (rotMagnitude_bounds (by omega) hc hp hp' f).2
    have hfields : (rot f c p).toNat % 2 ^ (exponentBits f + fractionBits f) = rotMagnitude f c.natAbs p ∧
        ((rot f c p).toNat / 2 ^ (exponentBits f + fractionBits f) % 2 = 1 ↔ c < 0) := by
      rw [rot_toNat hc hp hp' f h0]
      cases f <;> simp only [fractionBits, exponentBits] at * <;> split <;> omega
    rw [floatValue_eq, hfields.1, wordSign]
    simp only [hfields.2]
    rcases lt_or_gt_of_ne h0 with h | h
    · rw [if_pos h, Int.sign_eq_neg_one_of_neg h]; simp
    · rw [if_neg h.not_gt, Int.sign_eq_one_of_pos h]; simp

/-- The magnitude is positive for a nonzero count, so the sign of the count is that of the value (R89). -/
theorem magnitudeValue_rotMagnitude_pos (f : RotFormat) (h0 : c ≠ 0) :
    0 < magnitudeValue f (rotMagnitude f c.natAbs p) := by
  rw [← magnitudeValue_zero f]
  have hlo := (rotMagnitude_bounds (by omega) hc hp hp' f).1
  exact magnitudeValue_strictMono f ((Nat.two_pow_pos _).trans_le hlo)

theorem floatValue_rot_sign (f : RotFormat) :
    (floatValue f (rot f c p) < 0 ↔ c < 0) ∧ (0 < floatValue f (rot f c p) ↔ 0 < c) := by
  rw [floatValue_rot hc hp hp' f]
  rcases lt_trichotomy c 0 with h | rfl | h
  · have hpos := magnitudeValue_rotMagnitude_pos hc hp hp' f h.ne
    simp [Int.sign_eq_neg_one_of_neg h, hpos, hpos.not_gt, h, h.not_gt]
  · simp
  · have hpos := magnitudeValue_rotMagnitude_pos hc hp hp' f h.ne'
    simp [Int.sign_eq_one_of_pos h, hpos, hpos.not_gt, h, h.not_gt]

/-- No word is nearer to the quotient than `rot`, and one as near with another value leaves `rot` even (R88). -/
theorem rot_nearest (f : RotFormat) (b : ReadData) :
    |floatValue f (rot f c p) - (c : ℚ) / p| ≤ |floatValue f b - (c : ℚ) / p| ∧
    (|floatValue f (rot f c p) - (c : ℚ) / p| = |floatValue f b - (c : ℚ) / p| →
      floatValue f b ≠ floatValue f (rot f c p) → (rot f c p).toNat % 2 = 0) := by
  rcases eq_or_ne c 0 with rfl | h0
  · rw [rot_zero, floatValue_eq]
    simp [magnitudeValue_zero]
  obtain ⟨n, hround⟩ := rotMagnitude_roundsTo (by omega) hc hp hp' f
  obtain ⟨hle, htie⟩ := hround.nearest (floatValue_gap f (cast_sign_cases h0) b n)
  rw [abs_sub_quotient h0, abs_sub_quotient h0, rot_mod_two hc hp hp' f h0, floatValue_rot hc hp hp' f,
    sign_mul_sign_mul h0]
  refine ⟨hle, fun h hne => htie h fun heq => hne ?_⟩
  rw [← heq, sign_mul_sign_mul h0]

end

/-- Settles O50: `rot` takes one of the two magnitudes next to the quotient, and no word lies between them. -/
theorem rotationsRoundToNearestEven : Obligations.RotationsRoundToNearestEven := by
  intro f c p hc hp hp'
  refine ⟨rot_isFinite hc hp hp' f, ?_, fun b _ => rot_nearest hc hp hp' f b⟩
  rintro rfl
  exact rot_zero f p

/-- The document's two examples (R89). -/
theorem floatValue_rot_examples (f : RotFormat) :
    floatValue f (rot f 100 20) = 5 ∧ floatValue f (rot f (-10) 20) = -1 / 2 := by
  have h64 : rot .binary64 100 20 = 0x4014000000000000 ∧ rot .binary64 (-10) 20 = 0xBFE0000000000000 := by decide
  have h32 : rot .binary32 100 20 = 0x40A00000 ∧ rot .binary32 (-10) 20 = 0xBF000000 := by decide
  cases f with
  | binary64 =>
    rw [h64.1, h64.2]
    simp only [floatValue, fractionBits, exponentBits, exponentBias, BitVec.ofNat_eq_ofNat, BitVec.toNat_ofNat]
    norm_num
  | binary32 =>
    rw [h32.1, h32.2]
    simp only [floatValue, fractionBits, exponentBits, exponentBias, BitVec.ofNat_eq_ofNat, BitVec.toNat_ofNat]
    norm_num

/-- Settles O51: a word that is the quotient exactly is at distance 0, so `rot`, which is as near, is the quotient too;
the sign is that of the count. -/
theorem rotationsExactAndSigned : Obligations.RotationsExactAndSigned := by
  refine ⟨fun f c p hc hp hp' => ⟨fun b _ hb => ?_, floatValue_rot_sign hc hp hp' f⟩, floatValue_rot_examples⟩
  have hnear := (rot_nearest hc hp hp' f b).1
  rw [hb, sub_self, abs_zero] at hnear
  exact sub_eq_zero.1 (abs_nonpos_iff.1 hnear)

/-- A legal configuration keeps the count and `PPR` in the range the rounding needs. -/
theorem State.rot_range {s : State} (h : s.cfg.valid = true) :
    s.count.toInt.natAbs ≤ 2 ^ 63 ∧ 1 ≤ s.cfg.ppr.toNat ∧ s.cfg.ppr.toNat < 2 ^ 63 := by
  obtain ⟨⟨-, hw⟩, -⟩ := (Config.valid_iff s.cfg).1 h
  obtain ⟨hpos, hlt⟩ := Config.ppr_bounds h
  have hpow : (2 : Int) ^ (s.cfg.cntW - 1) ≤ 2 ^ 63 := pow_le_pow_right₀ (by norm_num) (by omega)
  have hlo := s.count.le_toInt
  have hhi := s.count.toInt_lt
  omega

/-- Settles O7: the next state is the model's, and the value's sign is the count's at every legal width and `PPR`. -/
theorem rdrotReturnsRotations : Obligations.RdrotReturnsRotations := by
  refine ⟨fun _ => decode_of_opField_five, by decide, fun s => ⟨rfl, fun h => ?_, fun h => ?_⟩, by decide⟩
  · have h0 : s.count.toInt = 0 := by rw [h]; exact BitVec.toInt_zero
    rw [h0, rot_zero]
  · obtain ⟨hc, hp, hp'⟩ := State.rot_range h
    exact (floatValue_rot_sign hc hp hp' s.cfg.rotFmt).symm

end Sys2Proof.Machine
end

section
/-! SUPPORT and the settled statements of 42_event_notifier.md: which operations pulse, what the event port carries and
to whom an event is delivered, and that neither the subscriber list nor its changes touch the machine. -/

namespace Sys2Proof.Machine

/-! When an operation pulses. -/

theorem decoderStep_direction_ne_none_iff_nibble (d : DecoderState) (x : Sample) :
    (decoderStep d x).2 ≠ .none ↔ (tableEntry d x).extractLsb' 4 4 ≠ 0 := by
  rcases tableEntry_direction_nibble d x with ⟨hn, hd⟩ | ⟨hn, hd⟩ | ⟨hn, hd⟩ <;> rw [hn, hd] <;> decide

section
variable {i : Instr} {s t : State}

/-- An operation pulses exactly when it is an unabandoned STEP in a cell with a direction (R95, R96). -/
theorem exec_pulse_iff (h : exec i s = .next t) :
    t.out.pulse = true ↔ ∃ x, i = .step false x ∧ (tableEntry s.state x).extractLsb' 4 4 ≠ 0 := by
  by_cases hi : ∃ x, i = .step false x
  · obtain ⟨x, rfl⟩ := hi
    rw [eq_decodeAndUpdate_of_exec_step h, decodeAndUpdate_pulse_iff, decoderStep_direction_ne_none_iff_nibble]
    simp
  · have hne : ∀ x, i ≠ .step false x := fun x hx => hi ⟨x, hx⟩
    rw [exec_pulse_of_ne_step h hne]
    simp [hne]

/-- The port `dir` of an unabandoned STEP is the direction nibble of its table entry (R95). -/
theorem exec_step_dir {x : Sample} (h : exec (.step false x) s = .next t) :
    t.out.dir = ((tableEntry s.state x).extractLsb' 4 4).setWidth 2 := by
  rw [eq_decodeAndUpdate_of_exec_step h, decodeAndUpdate_dir, decoderStep_direction_code]

/-! What the event port carries, and to whom the event is delivered. -/

/-- The event port and the notifications after an operation started with the subscribers `l`: an event carries the
count as it stands and is delivered to `l` in order, or the port is 0 and nobody is notified (R95, R96, R99). -/
def State.signalled (t : State) (l : List Nat) : Prop :=
  (t.out.pulse = true ∧ t.out.evcount = t.count ∧
    t.notified = l.map fun k => { subscriber := k, count := t.out.evcount }) ∨
  (t.out.pulse = false ∧ t.out.dir = 0 ∧ t.out.evcount = 0 ∧ t.notified = [])

theorem decodeAndUpdate_signalled (s : State) (x : Sample) : (decodeAndUpdate s x).signalled s.subs := by
  rcases decodeAndUpdate_cases s x with ⟨-, h⟩ | ⟨-, h⟩ | ⟨-, h⟩ <;> rw [h]
  · exact .inr ⟨rfl, rfl, rfl, rfl⟩
  · exact .inl ⟨rfl, rfl, rfl⟩
  · exact .inl ⟨rfl, rfl, rfl⟩

theorem exec_signalled (h : exec i s = .next t) : t.signalled s.subs := by
  rcases exec_cases h with ⟨-, rfl⟩ | ⟨-, rfl⟩ | ⟨x, -, rfl⟩ | ⟨-, rfl⟩ | ⟨-, rfl⟩ | ⟨-, rfl⟩ | ⟨-, rfl⟩ | ⟨-, rfl⟩ |
    ⟨-, rfl⟩
  case inr.inr.inl => exact decodeAndUpdate_signalled s x
  all_goals exact .inr ⟨rfl, rfl, rfl, rfl⟩

theorem State.signalled.of_pulse {l : List Nat} (h : t.signalled l) (hp : t.out.pulse = true) :
    t.out.evcount = t.count ∧ t.notified = l.map fun k => { subscriber := k, count := t.out.evcount } := by
  rcases h with ⟨-, he, hn⟩ | ⟨hq, -⟩
  · exact ⟨he, hn⟩
  · cases hp.symm.trans hq

theorem State.signalled.of_no_pulse {l : List Nat} (h : t.signalled l) (hp : t.out.pulse = false) :
    t.out.dir = 0 ∧ t.out.evcount = 0 ∧ t.notified = [] := by
  rcases h with ⟨hq, -⟩ | ⟨-, hd, he, hn⟩
  · cases hp.symm.trans hq
  · exact ⟨hd, he, hn⟩

theorem step_reset_out (hr : s.cycle.rst = true) (h : step s = .next t) : t.out = Outputs.quiet := by
  cases h.symm.trans (step_of_rst hr)
  rfl

end

/-- Settles O33: an operation pulses by the nibble of its cell, the port and the notifications are those of
`State.signalled`, and a reset drives quiet ports. -/
theorem eventExactlyOnDirection : Obligations.EventExactlyOnDirection := by
  refine ⟨fun i s t h => ⟨exec_pulse_iff h, ?_, fun hp => ?_, fun hp => ?_⟩, fun s t hr h => ?_⟩
  · rintro x rfl
    exact exec_step_dir h
  · obtain ⟨he, hn⟩ := (exec_signalled h).of_pulse hp
    exact ⟨he, he ▸ hn⟩
  · obtain ⟨hd, he, -⟩ := (exec_signalled h).of_no_pulse hp
    exact ⟨hd, he⟩
  · rw [step_reset_out hr h]
    exact ⟨rfl, rfl, rfl⟩

/-! Events of a run and its validated STEPs, one to one (R97). -/

section
variable {s t : State}

theorem State.validatesNow_iff (s : State) : s.validatesNow = true ↔
    s.cycle.rst = false ∧ ∃ x, decode s.cycle.cmd = .step false x ∧ (tableEntry s.state x).extractLsb' 4 4 ≠ 0 := by
  unfold State.validatesNow
  rw [Bool.and_eq_true, Bool.not_eq_true']
  refine and_congr_right fun _ => ?_
  split
  · next x hd => simp [hd]
  · next hi =>
    exact iff_of_false Bool.false_ne_true fun ⟨x, hd, _⟩ => hi x hd

/-- A step pulses exactly when it is a validated STEP; a reset is none. -/
theorem step_pulse_eq_validatesNow (h : step s = .next t) : t.out.pulse = s.validatesNow := by
  rw [Bool.eq_iff_iff, State.validatesNow_iff]
  rcases step_cases h with ⟨hr, rfl⟩ | ⟨hr, u, hu, rfl⟩
  · simp [hr]
  · rw [State.advance_out, exec_pulse_iff hu, and_iff_right hr]

/-- The event of a step carries the count the step leaves (R95, R97). -/
theorem step_evcount_of_pulse (h : step s = .next t) (hp : t.out.pulse = true) : t.out.evcount = t.count := by
  obtain ⟨x, -, rfl⟩ := step_sample_of_pulse h hp
  exact ((decodeAndUpdate_signalled s x).of_pulse hp).1

theorem State.event_length (t : State) : t.event.toList.length = if t.out.pulse then 1 else 0 := by
  unfold State.event
  cases t.out.pulse <;> rfl

theorem validatedSteps_succ_of_step {k : Nat} (h : step s = .next t) :
    validatedSteps (k + 1) s = (if s.validatesNow then 1 else 0) + validatedSteps k t := by
  simp only [validatedSteps, h]

theorem eventsOf_length (k : Nat) (s : State) : (eventsOf k s).length = validatedSteps k s := by
  induction k generalizing s with
  | zero => rfl
  | succ k ih =>
    obtain ⟨t, ht⟩ := step_completes s
    rw [eventsOf_succ_of_step ht, validatedSteps_succ_of_step ht, List.length_append, State.event_length,
      step_pulse_eq_validatesNow ht, ih]

end

/-- Settles O34: each step has one event or none, as it is a validated STEP or not, and RDCNT reads the count, which
is the one the event carried. -/
theorem eventsMatchValidatedSteps : Obligations.EventsMatchValidatedSteps := by
  refine ⟨eventsOf_length, fun s t u h hp hu => ?_⟩
  injection hu with hu
  rw [← hu, step_evcount_of_pulse h hp]
  rfl

/-! The subscriber list. -/

/-- A STEP reads the list only to deliver its event to it (R99, R100). -/
theorem decodeAndUpdate_with_subs (s : State) (x : Sample) (l : List Nat) :
    decodeAndUpdate { s with subs := l } x = { decodeAndUpdate s x with
      subs := l
      notified := if (decodeAndUpdate s x).out.pulse then
        l.map fun k => { subscriber := k, count := (decodeAndUpdate s x).out.evcount } else [] } := by
  unfold decodeAndUpdate
  rcases decoderStep s.state x with ⟨d, dir⟩
  cases dir <;> rfl

/-- Settles O39: only an unabandoned STEP reads the list, and it does so only to deliver its event; every other
operation notifies nobody. -/
theorem subscribersDoNotMatter : Obligations.SubscribersDoNotMatter := by
  intro i s t l h
  rcases exec_cases h with ⟨rfl, rfl⟩ | ⟨⟨x, rfl⟩, rfl⟩ | ⟨x, rfl, rfl⟩ | ⟨rfl, rfl⟩ | ⟨rfl, rfl⟩ | ⟨rfl, rfl⟩ |
    ⟨rfl, rfl⟩ | ⟨rfl, rfl⟩ | ⟨rfl, rfl⟩
  case inr.inr.inl => exact congrArg Host.Outcome.next (decodeAndUpdate_with_subs s x l)
  all_goals rfl

/-- Neither a reset nor an operation reads the cycle's changes of the list: they take effect at the end of the cycle,
after the event has been delivered (R101). -/
theorem step_present_rewired (s : State) (c : Cycle s.cfg.cntW) (w : List SubChange) :
    ∃ d x o n,
      step (s.present c) = .next { s with
        state := d, count := x, out := o, notified := n, subs := c.wiring.foldl SubChange.apply s.subs } ∧
      step (s.present { c with wiring := w }) = .next { s with
        state := d, count := x, out := o, notified := n, subs := w.foldl SubChange.apply s.subs } ∧
      (o.pulse = true → n = s.subs.map fun k => { subscriber := k, count := o.evcount }) := by
  rcases Bool.eq_false_or_eq_true c.rst with hr | hr
  · exact ⟨_, _, _, _, step_of_rst (s := s.present c) hr, step_of_rst (s := s.present { c with wiring := w }) hr,
      fun hp => by cases hp⟩
  · obtain ⟨d, x, o, n, hc, hd⟩ := exec_present_congr (s := s) (c := c) (d := { c with wiring := w }) fun _ => rfl
    exact ⟨d, x, o, n, step_of_exec (s := s.present c) hr hc,
      step_of_exec (s := s.present { c with wiring := w }) hr hd, fun hp => ((exec_signalled hc).of_pulse hp).2⟩

/-- Settles O40: the two cycles are presented to one machine and differ in their changes of the list only. -/
theorem firingUsesTheListAsItStands : Obligations.FiringUsesTheListAsItStands := by
  intro s c r w
  obtain ⟨d, x, o, n, h⟩ := step_present_rewired { s with inputs := r } c w
  exact ⟨d, x, o, n, r, h⟩

end Sys2Proof.Machine
end

section
/-! SUPPORT and the settled statements of 60_exceptions.md: which operations raise an exception, that the report of
the step is all they do, the order of R122, and that the next step cannot see an abandoned operation. -/

namespace Sys2Proof.Machine

/-! The words of the two abandoned operations. -/

/-- The field `serr` is bit 2 of the word's number (R51). -/
theorem serrField_iff (w : CommandWord) : serrField w = true ↔ w.toNat / 4 % 2 = 1 := by
  simp [serrField, BitVec.getLsbD, Nat.testBit_eq_decide_div_mod_eq]

theorem decode_eq_reserved_iff_opField (w : CommandWord) : decode w = .reserved ↔ opField w = 7 := by
  rw [decode_eq_reserved_iff, ← BitVec.toNat_inj]
  rfl

/-- A failed STEP is code 1 with `serr` = 1, whatever the sample bits (R55, R116). -/
theorem decode_failed_step_iff (w : CommandWord) :
    (∃ x, decode w = .step true x) ↔ opField w = 1 ∧ serrField w = true := by
  constructor
  · rintro ⟨x, hx⟩
    unfold decode at hx
    split at hx
    case h_2 hop =>
      injection hx with hserr
      exact ⟨BitVec.eq_of_toNat_eq hop, hserr⟩
    all_goals cases hx
  · rintro ⟨hop, hserr⟩
    exact ⟨0, by rw [decode_of_opField_one hop, if_pos hserr]⟩

/-! What an exception does to the operation that raises it. -/

theorem Exception.code_cases (e : Exception) : e.code = 1 ∨ e.code = 2 := by
  cases e with
  | sampleReadFailure => exact .inl rfl
  | reservedOperation => exact .inr rfl

section
variable {i : Instr} {s t : State}

/-- An operation reports a fault exactly when it is the reserved one or a failed STEP (R116, R118). -/
theorem exec_fault_iff (h : exec i s = .next t) :
    t.out.fault = true ↔ i = .reserved ∨ ∃ x, i = .step true x := by
  rcases exec_report_cases h with ⟨hi, rfl⟩ | ⟨hi, rfl⟩ | ⟨hres, hstep, hf, -⟩
  · exact iff_of_true rfl (.inl hi)
  · exact iff_of_true rfl (.inr hi)
  · simp [hres, hstep, hf]

/-- A reported fault is an exception taken, and nothing else has happened (R115, R123). -/
theorem eq_raiseException_of_fault (h : exec i s = .next t) (hf : t.out.fault = true) :
    ∃ e, t = s.raiseException e := by
  rcases exec_report_cases h with ⟨-, ht⟩ | ⟨-, ht⟩ | ⟨-, -, h0, -⟩
  · exact ⟨_, ht⟩
  · exact ⟨_, ht⟩
  · cases hf.symm.trans h0

/-- The code 1 names SampleReadFailure and is left by nothing else (R116). -/
theorem eq_failed_step_of_exec_fcode (h : exec i s = .next t) (hc : t.out.fcode = 1) : ∃ x, i = .step true x := by
  rcases exec_report_cases h with ⟨-, rfl⟩ | ⟨hi, -⟩ | ⟨-, -, -, h0⟩
  · exact absurd hc (by simp [Exception.code])
  · exact hi
  · exact absurd (h0.symm.trans hc) (by decide)

/-- The event port is 0 where a fault is reported (R122). -/
theorem exec_not_pulse_and_fault (h : exec i s = .next t) : ¬(t.out.pulse = true ∧ t.out.fault = true) := by
  rintro ⟨hp, hf⟩
  obtain ⟨e, rfl⟩ := eq_raiseException_of_fault h hf
  cases hp

end

/-- Settles O9: the words 0x0C to 0x0F have code 1 and bit 2 set; of the two exceptions only SampleReadFailure has
code 1. -/
theorem failedReadRaises : Obligations.FailedReadRaises := by
  refine ⟨fun w hlo hhi => (decode_failed_step_iff w).2 ⟨BitVec.eq_of_toNat_eq ?_, (serrField_iff w).2 (by omega)⟩,
    fun _ _ => rfl, fun _ _ _ => eq_failed_step_of_exec_fcode⟩
  rw [opField_toNat]
  change w.toNat / 8 = 1
  omega

/-- Settles O10: the two operations that report a fault take an exception, which writes the report only. -/
theorem exceptionOnlyReports : Obligations.ExceptionOnlyReports := by
  refine fun i s t h => ⟨exec_fault_iff h, fun hf => ?_⟩
  obtain ⟨e, rfl⟩ := eq_raiseException_of_fault h hf
  exact ⟨rfl, e.code_cases⟩

/-! The step. -/

/-- A cycle with an abandoned operation leaves its report on the ports and the environment's changes of the
subscriber list, and nothing else (R101, R123). -/
theorem step_present_abandoned (s : State) {c : Cycle s.cfg.cntW} (hr : c.rst = false)
    (hi : decode c.cmd = .reserved ∨ ∃ x, decode c.cmd = .step true x) :
    ∃ o, o.fault = true ∧ step (s.present c) = .next { s with
      subs := c.wiring.foldl SubChange.apply s.subs, out := o, notified := [] } := by
  obtain ⟨t, ht⟩ := exec_completes (decode c.cmd) (s.present c)
  obtain ⟨e, rfl⟩ := eq_raiseException_of_fault ht ((exec_fault_iff ht).2 hi)
  exact ⟨_, rfl, step_of_exec (s := s.present c) hr ht⟩

/-- No step sees the ports and the notifications of the step before it (R98, R125). -/
theorem step_ports_unread (s : State) (o n) : step { s with out := o, notified := n } = step s := by
  cases hr : s.cycle.rst with
  | true => exact (step_of_rst (s := { s with out := o, notified := n }) hr).trans (step_of_rst hr).symm
  | false =>
    obtain ⟨t, ht⟩ := exec_completes (decode s.cycle.cmd) s
    have ht' := (exec_ports_unread (decode s.cycle.cmd) s o n).trans ht
    exact (step_of_exec (s := { s with out := o, notified := n }) hr ht').trans (step_of_exec hr ht).symm

/-- Settles O11: a reset cycle runs nothing, and in any other the decoded operation reports a fault or runs; what the
fields say of the two exceptions decides which. -/
theorem oneThingPerStep : Obligations.OneThingPerStep := by
  intro s
  obtain ⟨t, ht⟩ := step_completes s
  refine ⟨t, ht, ?_⟩
  rcases step_cases ht with ⟨hr, rfl⟩ | ⟨hr, u, hu, rfl⟩
  · exact ⟨fun _ => ⟨rfl, rfl, rfl, rfl, rfl⟩, by simp [hr], by simp [hr], by simp [hr], by simp⟩
  refine ⟨by simp [hr], fun _ hop => ?_, fun _ hop hserr => ?_, fun _ hop hserr => ⟨?_, u, hu, rfl⟩,
    (exec_not_pulse_and_fault hu :)⟩
  · rw [(decode_eq_reserved_iff_opField _).2 hop] at hu
    cases hu
    exact ⟨rfl, rfl, rfl, rfl, rfl, rfl⟩
  · obtain ⟨x, hx⟩ := (decode_failed_step_iff s.cycle.cmd).2 ⟨hop, hserr⟩
    rw [hx] at hu
    cases hu
    exact ⟨rfl, rfl, rfl, rfl, rfl, rfl⟩
  · rw [State.advance_out, ← Bool.not_eq_true, exec_fault_iff hu]
    rintro (hres | hstep)
    · exact hop ((decode_eq_reserved_iff_opField _).1 hres)
    · obtain ⟨h1, hs⟩ := (decode_failed_step_iff _).1 hstep
      cases (hserr h1).symm.trans hs

/-- Settles O37: the abandoned operation leaves its report on the ports and nothing else, and the next step does not
read the ports. -/
theorem abandonedOperationLeavesNoTrace : Obligations.AbandonedOperationLeavesNoTrace := by
  intro s c r hr hi
  obtain ⟨o, hf, ht⟩ := step_present_abandoned { s with inputs := r } hr hi
  exact ⟨_, ht, hf, step_ports_unread { s with inputs := r, subs := c.wiring.foldl SubChange.apply s.subs } o []⟩

/-! Construction. -/

/-- At an allowed width the check of `PPR` decides (R117). -/
theorem State.construct_of_widthAllowed {c : Config} (h : c.widthAllowed = true) :
    State.construct c = if c.pprAllowed then .next (State.ofConfig c) else .refused .configurationError := by
  cases hp : c.pprAllowed <;> simp [State.construct, h, hp]

/-- Settles O15: the check of `PPR` is its range. -/
theorem constructionChecksPpr : Obligations.ConstructionChecksPpr := by
  intro c hlo hhi
  rw [State.construct_of_widthAllowed (decide_eq_true ⟨hlo, hhi⟩)]
  exact ⟨fun h => if_pos (decide_eq_true h), fun h => if_neg (by simpa [Config.pprAllowed] using h)⟩

end Sys2Proof.Machine
end

section
/-! SUPPORT and the settled statement of 70_reset_and_hazards.md: a reset writes both registers and every port, so a
step with reset forgets what they held. -/

namespace Sys2Proof.Machine

/-- A reset overwrites what the registers, the ports and the notifications held (R135 to R137). -/
theorem State.resetInstance_registers_unread (s : State) (d c o n) :
    ({ s with state := d, count := c, out := o, notified := n } : State).resetInstance = s.resetInstance := rfl

/-- Settles O13: both steps end the cycle of a reset instance, and the two instances are the same. -/
theorem nothingSurvivesReset : Obligations.NothingSurvivesReset := by
  intro s d c o n hr
  rw [step_of_rst hr, step_of_rst, State.resetInstance_registers_unread]
  exact hr

end Sys2Proof.Machine
end

section
/-! SUPPORT and the settled statements of 30_encoding.md about the whole map of words and operations: the fields of a
word put together and taken apart, decode and encode as inverses, and what a step runs. -/

namespace Sys2Proof.Machine

/-! The three fields of a word (R51). -/

@[simp] theorem opField_commandWord (op : BitVec 3) (serr : Bool) (x : Sample) :
    opField (commandWord op serr x) = op := by
  revert op serr x; decide

@[simp] theorem serrField_commandWord (op : BitVec 3) (serr : Bool) (x : Sample) :
    serrField (commandWord op serr x) = serr := by
  revert op serr x; decide

@[simp] theorem sampleField_commandWord (op : BitVec 3) (serr : Bool) (x : Sample) :
    sampleField (commandWord op serr x) = x := by
  revert op serr x; decide

/-- A word is its fields. -/
theorem commandWord_fields (w : CommandWord) : commandWord (opField w) (serrField w) (sampleField w) = w := by
  revert w; decide

/-- With the ignored bits 0 the operation field alone is left. -/
theorem commandWord_opField (w : CommandWord) : commandWord (opField w) false 0 = w &&& 0x38 := by
  revert w; decide

theorem opField_cases (w : CommandWord) :
    opField w = 0 ∨ opField w = 1 ∨ opField w = 2 ∨ opField w = 3 ∨ opField w = 4 ∨ opField w = 5 ∨ opField w = 6 ∨
      opField w = 7 := by
  generalize opField w = op
  revert op; decide

/-! Decode and encode. -/

/-- Of the decoded instructions only a STEP has a sample, and a failed one has it dropped (R55). -/
theorem decode_wellFormed (w : CommandWord) : (decode w).wellFormed = true := by
  unfold decode
  split
  case h_2 => cases serrField w <;> simp [Instr.wellFormed]
  all_goals rfl

theorem decode_commandWord_step (serr : Bool) (x : Sample) :
    decode (commandWord 1 serr x) = if serr then .step true 0 else .step false x := by
  rw [decode_of_opField_one (opField_commandWord 1 serr x), serrField_commandWord, sampleField_commandWord]

theorem decode_encode {i : Instr} (h : i.wellFormed = true) : decode (encode i) = i := by
  cases i with
  | step serr x =>
    rw [encode, decode_commandWord_step]
    cases serr with
    | false => rfl
    | true =>
      have hx : x = 0 := by simpa [Instr.wellFormed] using h
      rw [hx]; rfl
  | nop => exact decode_of_opField_zero (opField_commandWord ..)
  | setcnt => exact decode_of_opField_two (opField_commandWord ..)
  | rdcnt => exact decode_of_opField_three (opField_commandWord ..)
  | rdppr => exact decode_of_opField_four (opField_commandWord ..)
  | rdrot => exact decode_of_opField_five (opField_commandWord ..)
  | rdstate => exact decode_of_opField_six (opField_commandWord ..)
  | reserved => exact (decode_eq_reserved_iff_opField _).2 (opField_commandWord ..)

/-- A STEP keeps its word, but for the ignored sample of a failed read (R55). -/
theorem encode_decode_step {w : CommandWord} (h : opField w = 1) :
    encode (decode w) = if serrField w then 0x0C else w := by
  rw [decode_of_opField_one h]
  cases hs : serrField w with
  | true => rfl
  | false =>
    calc commandWord 1 false (sampleField w) = commandWord (opField w) (serrField w) (sampleField w) := by rw [h, hs]
      _ = w := commandWord_fields w

/-- Every other operation keeps its operation field only (R55). -/
theorem encode_decode_of_ne_step {w : CommandWord} (h : opField w ≠ 1) : encode (decode w) = w &&& 0x38 := by
  rw [← commandWord_opField]
  rcases opField_cases w with h0 | h1 | h2 | h3 | h4 | h5 | h6 | h7
  · rw [decode_of_opField_zero h0, h0]; rfl
  · exact absurd h1 h
  · rw [decode_of_opField_two h2, h2]; rfl
  · rw [decode_of_opField_three h3, h3]; rfl
  · rw [decode_of_opField_four h4, h4]; rfl
  · rw [decode_of_opField_five h5, h5]; rfl
  · rw [decode_of_opField_six h6, h6]; rfl
  · rw [(decode_eq_reserved_iff_opField w).2 h7, h7]; rfl

/-- Settles O19: the fields of an encoded word are those put in, and a word is its fields, of which a decoded
instruction keeps all that are not ignored. -/
theorem decodeEncodeAgree : Obligations.DecodeEncodeAgree := by
  refine ⟨fun i => decode_encode, fun w => ⟨decode_wellFormed w, ?_⟩⟩
  change encode (decode w) = if opField w = 1 then (if serrField w then 0x0C else w) else w &&& 0x38
  split
  · next h => exact encode_decode_step h
  · next h => exact encode_decode_of_ne_step h

/-- Settles O16: a decoded word is well formed, every operation completes, and the step ends the cycle after it. -/
theorem stepRunsDecoded : Obligations.StepRunsDecoded := by
  intro s hr
  obtain ⟨t, ht⟩ := exec_completes (decode s.cycle.cmd) s
  exact ⟨decode_wellFormed _, t, ht, step_of_exec hr ht⟩

/-- Settles O18: eleven fixed words, each decoded. -/
theorem specWordsDecode : Obligations.SpecWordsDecode := by
  unfold Obligations.SpecWordsDecode
  decide

/-- Settles O21: each pseudo-operation is one word of text, whose expansion is written out in the assembler. -/
theorem pseudoOperationsExpand : Obligations.PseudoOperationsExpand :=
  fun _ => ⟨rfl, rfl, rfl, rfl, rfl⟩

end Sys2Proof.Machine
end

section
/-! SUPPORT and the settled statements about the invariant of an instance and its event port (30_encoding.md section 1,
42_event_notifier.md section 1, 60_exceptions.md section 3): what every operation drives is well formed, and a step
signals what `State.signalled` says. -/

namespace Sys2Proof.Machine

/-! What the operations drive (R48). -/

theorem Outputs.quiet_wellFormed {w : Nat} : (Outputs.quiet : Outputs w).wellFormed := by
  simp [Outputs.wellFormed, Outputs.quiet]

theorem State.returnValue_wellFormed (s : State) (v : ReadData) : (s.returnValue v).out.wellFormed := by
  simp [Outputs.wellFormed, Outputs.quiet]

theorem State.raiseException_wellFormed (s : State) (e : Exception) : (s.raiseException e).out.wellFormed := by
  simpa [Outputs.wellFormed, Outputs.quiet] using e.code_cases

/-- An event's direction is Clockwise or CounterClockwise (R18, R95). -/
theorem pulseOutputs_wellFormed {w : Nat} {d : Direction} (hd : d ≠ .none) (c : BitVec w) :
    (pulseOutputs d c).wellFormed := by
  have hcode : d.code = 1 ∨ d.code = 2 := by
    cases d with
    | none => exact absurd rfl hd
    | clockwise => exact .inl rfl
    | counterClockwise => exact .inr rfl
  simpa [Outputs.wellFormed, pulseOutputs, Outputs.quiet] using hcode

theorem decodeAndUpdate_wellFormed (s : State) (x : Sample) : (decodeAndUpdate s x).out.wellFormed := by
  rcases decodeAndUpdate_cases s x with ⟨-, h⟩ | ⟨-, h⟩ | ⟨-, h⟩ <;> rw [h]
  · exact Outputs.quiet_wellFormed
  · exact pulseOutputs_wellFormed (by decide) _
  · exact pulseOutputs_wellFormed (by decide) _

theorem exec_wellFormed {i : Instr} {s t : State} (h : exec i s = .next t) : t.out.wellFormed := by
  rcases exec_cases h with ⟨-, rfl⟩ | ⟨-, rfl⟩ | ⟨x, -, rfl⟩ | ⟨-, rfl⟩ | ⟨-, rfl⟩ | ⟨-, rfl⟩ | ⟨-, rfl⟩ | ⟨-, rfl⟩ |
    ⟨-, rfl⟩
  · exact Outputs.quiet_wellFormed
  · exact s.raiseException_wellFormed _
  · exact decodeAndUpdate_wellFormed s x
  · exact Outputs.quiet_wellFormed
  · exact s.returnValue_wellFormed _
  · exact s.returnValue_wellFormed _
  · exact s.returnValue_wellFormed _
  · exact s.returnValue_wellFormed _
  · exact s.raiseException_wellFormed _

/-! One step. -/

section
variable {s t : State}

theorem step_wellFormed (h : step s = .next t) : t.out.wellFormed := by
  rcases step_cases h with ⟨-, rfl⟩ | ⟨-, u, hu, rfl⟩
  · exact Outputs.quiet_wellFormed
  · exact (exec_wellFormed hu :)

/-- A step signals to the list as it stood, a reset nothing (R95, R96, R135). -/
theorem step_signalled (h : step s = .next t) : t.signalled s.subs := by
  rcases step_cases h with ⟨-, rfl⟩ | ⟨-, u, hu, rfl⟩
  · exact .inr ⟨rfl, rfl, rfl, rfl⟩
  · exact (exec_signalled hu :)

/-- An event leaves START (R67). -/
theorem step_state_of_pulse (h : step s = .next t) (hp : t.out.pulse = true) : t.state = .start := by
  obtain ⟨x, -, rfl⟩ := step_sample_of_pulse h hp
  obtain ⟨-, rfl⟩ := (decodeAndUpdate_pulse_iff_cell s x).1 hp
  rw [State.advance_state, decodeAndUpdate_state, decoderStep_sample_zero]

/-- Nobody is told another count than the event's (R95). -/
theorem State.signalled.count_of_mem {l : List Nat} (h : t.signalled l) :
    ∀ n ∈ t.notified, n.count = t.out.evcount := by
  rcases h with ⟨-, -, hn⟩ | ⟨-, -, -, hn⟩ <;> simp [hn]

end

/-- Settles O53: the constants are kept, and the ports, the event and the notifications of a step are what its
operation leaves, whatever the state before it. -/
theorem stepKeepsTheInvariant : Obligations.StepKeepsTheInvariant := by
  rintro s t ⟨hvalid, -⟩ h
  have hsignal := step_signalled h
  exact ⟨step_cfg h ▸ hvalid, step_wellFormed h, fun hp => ⟨step_state_of_pulse h hp, (hsignal.of_pulse hp).1⟩,
    fun hp => (hsignal.of_no_pulse hp).2.2, hsignal.count_of_mem⟩

/-! The first state. -/

/-- A new instance signals nothing (R137). -/
theorem State.ofConfig_inv {c : Config} (h : c.valid = true) : (State.ofConfig c).Inv :=
  ⟨h, Outputs.quiet_wellFormed, fun hp => absurd hp Bool.false_ne_true, fun _ => rfl, List.forall_mem_nil _⟩

/-- Whatever the open `PPR` is, it is in the range of 32 bits (R5; log 2). -/
theorem Config.default_valid : Config.default.valid = true := by
  have hlt := Config.pprIndex.isLt
  rw [Config.valid_iff]
  simp only [Config.default]
  omega

/-- Construction answers an instance for legal parameters only (R3, R117). -/
theorem State.construct_eq_next {c : Config} {s : State} (h : State.construct c = .next s) :
    c.valid = true ∧ s = State.ofConfig c := by
  cases hw : c.widthAllowed with
  | false => simp [State.construct, hw] at h
  | true =>
    rw [State.construct_of_widthAllowed hw] at h
    split at h
    · next hp =>
      injection h with h
      exact ⟨by rw [Config.valid, hw, hp]; rfl, h.symm⟩
    · cases h

/-- Settles O54: both are new instances of legal parameters. -/
theorem resetMeetsTheInvariant : Obligations.ResetMeetsTheInvariant := by
  refine ⟨State.ofConfig_inv Config.default_valid, fun c s h => ?_⟩
  obtain ⟨hvalid, rfl⟩ := State.construct_eq_next h
  exact State.ofConfig_inv hvalid

end Sys2Proof.Machine
end

section
/-! SUPPORT and the settled statements about one operation and one step: the address of a table entry (20_memory.md
section 1), the frame of every operation (10_state.md), completion, reset, and the subscriber list. -/

namespace Sys2Proof.Machine

/-! The table memory (R32). -/

theorem tableAddress_toNat (d : DecoderState) (x : Sample) :
    (tableAddress d x).toNat = 4 * d.code.toNat + x.toNat := by
  rw [tableAddress, BitVec.toNat_append, ← Nat.shiftLeft_add_eq_or_of_lt x.isLt, Nat.shiftLeft_eq]
  omega

/-- Seven rows of four bytes. -/
theorem tableAddress_lt (d : DecoderState) (x : Sample) : (tableAddress d x).toNat < 28 := by
  have hcode := d.code_toNat_le_six
  have hx := x.isLt
  rw [tableAddress_toNat]
  omega

theorem tableRom_length : tableRom.length = 28 := rfl

/-- The address is inside the memory, so the entry is the byte there. -/
theorem tableRom_getElem? (d : DecoderState) (x : Sample) :
    tableRom[(tableAddress d x).toNat]? = some (tableEntry d x) := by
  have hlt : (tableAddress d x).toNat < tableRom.length := tableAddress_lt d x
  rw [tableEntry, List.getD_eq_getElem _ _ hlt, List.getElem?_eq_getElem hlt]

/-- Settles O23: the code is the upper three bits of the address, and at most 6. -/
theorem tableAddressing : Obligations.TableAddressing :=
  ⟨tableRom_length, fun d x =>
    ⟨tableAddress_toNat d x, tableAddress_lt d x, tableAddress_toNat d x ▸ tableRom_getElem? d x⟩⟩

/-- Settles O31: a STEP, SETCNT, and the operations that only drive ports; only an event of a STEP notifies, and it
notifies the list. -/
theorem operationFrame : Obligations.OperationFrame := by
  intro i s t h
  rcases exec_writers h with ⟨x, rfl, rfl⟩ | ⟨rfl, rfl⟩ | ⟨-, -, o, rfl⟩
  · rcases decodeAndUpdate_cases s x with ⟨-, hu⟩ | ⟨-, hu⟩ | ⟨-, hu⟩ <;>
      exact ⟨_, _, _, _, hu, fun hi => absurd rfl (hi x), fun hi => absurd rfl (hi x), fun hs => by simp [hs]⟩
  · exact ⟨_, _, _, _, rfl, fun _ => rfl, fun _ hc => absurd rfl hc, fun _ => rfl⟩
  · exact ⟨_, _, _, _, rfl, fun _ => rfl, fun _ _ => rfl, fun _ => rfl⟩

/-- Settles O17: a reset completes, and so does every operation. -/
theorem everyStepCompletes : Obligations.EveryStepCompletes := step_completes

/-- Settles O38: neither a reset nor an operation sees the ports it overwrites. -/
theorem outputsAreNotRead : Obligations.OutputsAreNotRead := step_ports_unread

/-- Settles O12: a step with reset ends the cycle of the reset instance. -/
theorem resetStepRestores : Obligations.ResetStepRestores := fun _ => step_of_rst

/-- Settles O41: the two described cases of a change of the list. -/
theorem subscribersKeepInsertionOrder : Obligations.SubscribersKeepInsertionOrder :=
  fun _ _ => ⟨SubChange.apply_register, SubChange.apply_unregister⟩

end Sys2Proof.Machine
end

section
/-! SUPPORT and the settled statements about histories: the balance of the events, the canonical sequences from every
state, and what no run emits, resets included (40_decoder_fsm.md section 5, 41_counter_rotation.md section 1,
70_reset_and_hazards.md section 3). -/

namespace Sys2Proof.Machine

/-! Runs without reset. -/

/-- The count moves by the Clockwise events less the CounterClockwise ones. -/
theorem run_count_balance {k : Nat} {s t : State} (hs : s.noReset k) (hc : s.noSetcnt k)
    (h : Host.Core.run core k s = .next t) :
    t.count.toInt =
      (s.count.toInt + countDir 1 (eventsOf k s) - countDir 2 (eventsOf k s)).bmod (2 ^ s.cfg.cntW) := by
  rw [run_count_toInt hs hc h, netCount, add_sub_assoc]

/-- Settles O45: every run completes, and its count moves by the balance of its events. -/
theorem countIsTheBalanceOfEvents : Obligations.CountIsTheBalanceOfEvents := by
  intro k s hs hc
  obtain ⟨t, ht⟩ := run_completes k s
  exact ⟨t, ht, run_count_balance hs hc ht⟩

/-- A presented sequence of good STEPs takes the machine where it takes the decoder, with the decoder's directions as
events. -/
theorem run_of_presents {s : State} {xs : List Sample} {d : DecoderState} {codes : List (BitVec 2)}
    (hs : s.presents (goodSteps xs)) (hd : decoderRun s.state xs = d ∧ directionCodes s.state xs = codes) :
    ∃ t, Host.Core.run core xs.length s = .next t ∧ t.state = d ∧
      t.count.toInt = (s.count.toInt + countDir 1 (eventsOf xs.length s) -
        countDir 2 (eventsOf xs.length s)).bmod (2 ^ s.cfg.cntW) ∧
      (eventsOf xs.length s).map Prod.fst = codes := by
  obtain ⟨rfl, rfl⟩ := hd
  obtain ⟨hr, hc, hsam⟩ := presents_goodSteps hs
  obtain ⟨t, ht⟩ := run_completes xs.length s
  refine ⟨t, ht, ?_, run_count_balance hr hc ht, eventsOf_codes_of_presents hs⟩
  rw [run_state hr ht, hsam]

theorem decoder_over_fwd (d : DecoderState) : decoderRun d samplesFwd = .start ∧
    directionCodes d samplesFwd = match d with
      | .cwFinal => [1, 1]
      | .ccwFinal => [2, 1]
      | _ => [1] := by
  cases d <;> decide

theorem decoder_over_rev (d : DecoderState) : decoderRun d samplesRev = .start ∧
    directionCodes d samplesRev = match d with
      | .cwFinal => [1, 2]
      | .ccwFinal => [2, 2]
      | _ => [2] := by
  cases d <;> decide

theorem decoder_over_cw4 (d : DecoderState) : decoderRun d samplesCw4 = .start ∧
    directionCodes d samplesCw4 = if d = .start then [1] else [] := by
  cases d <;> decide

theorem decoder_over_ccw4 (d : DecoderState) : decoderRun d samplesCcw4 = .start ∧
    directionCodes d samplesCcw4 = if d = .start then [2] else [] := by
  cases d <;> decide

/-- Settles O44: the machine over each sequence is the decoder over it, from each of the seven states. -/
theorem sequencesFromEveryState : Obligations.SequencesFromEveryState :=
  ⟨fun s hs => run_of_presents hs (decoder_over_fwd s.state), fun s hs => run_of_presents hs (decoder_over_cw4 s.state),
    fun s hs => run_of_presents hs (decoder_over_rev s.state),
    fun s hs => run_of_presents hs (decoder_over_ccw4 s.state)⟩

/-! Runs with resets. -/

/-- What any step does to the decoder: an unabandoned STEP with the cycle's sample; else the state is kept, or START
after a reset, and nothing is emitted. -/
theorem step_decoder_cases {s t : State} (h : step s = .next t) :
    (∃ x, s.cycle.sample? = some x ∧ t = (decodeAndUpdate s x).advance) ∨
    (s.cycle.sample? = none ∧ (t.state = .start ∨ t.state = s.state) ∧ t.event = none) := by
  rcases step_cases h with ⟨hr, rfl⟩ | ⟨hr, -⟩
  · exact .inr ⟨Cycle.sample?_reset hr, .inl rfl, State.event_of_not_pulse rfl⟩
  rcases step_sample_cases h hr with hstep | ⟨hx, hs, hp, -⟩
  · exact .inl hstep
  · exact .inr ⟨hx, .inr hs, State.event_of_not_pulse hp⟩

/-- How many samples of its sequence a state has behind it (R65). -/
def DecoderState.progress : DecoderState → Nat
  | .start => 0
  | .cwBegin => 1
  | .cwNext => 2
  | .cwFinal => 3
  | .ccwBegin => 1
  | .ccwNext => 2
  | .ccwFinal => 3

/-- A sample adds at most one to the progress, and a direction uses up four. -/
theorem progress_decoderStep (d : DecoderState) (x : Sample) :
    4 * (decoderStep d x).2.eventCodes.length + (decoderStep d x).1.progress ≤ d.progress + 1 := by
  revert x; cases d <;> decide

theorem step_progress {s t : State} (h : step s = .next t) :
    4 * t.event.toList.length + t.state.progress ≤ s.state.progress + s.cycle.sample?.toList.length := by
  rcases step_decoder_cases h with ⟨x, hx, rfl⟩ | ⟨hx, hs, he⟩
  · have hcodes := congrArg List.length (decodeAndUpdate_event_codes s x)
    rw [List.length_map] at hcodes
    rw [hx, State.advance_event, hcodes, State.advance_state, decodeAndUpdate_state]
    exact progress_decoderStep s.state x
  · rw [hx, he]
    rcases hs with hs | hs <;> simp [hs, DecoderState.progress]

/-- Every event has four samples behind it, of which the state at the start may hold some. -/
theorem eventsOf_length_le (k : Nat) (s : State) :
    4 * (eventsOf k s).length ≤ s.state.progress + (samplesOf (s.inputs.take k)).length := by
  induction k generalizing s with
  | zero => simp [eventsOf]
  | succ k ih =>
    obtain ⟨t, ht⟩ := step_completes s
    have hstep := step_progress ht
    have hrest := ih t
    rw [eventsOf_succ_of_step ht, step_samplesOf ht, List.length_append, List.length_append]
    omega

/-- Settles O48: START has no sample behind it. -/
theorem fourStepsPerPulse : Obligations.FourStepsPerPulse := by
  intro k s hstart
  simpa [hstart, DecoderState.progress] using eventsOf_length_le k s

/-- No run emits where the allowed samples keep the decoder among states from which none of them has a direction. -/
theorem eventsOf_eq_nil_of_closed {closed : DecoderState → Prop} {allowed : Sample → Prop} (hstart : closed .start)
    (hcell : ∀ d x, closed d → allowed x → closed (decoderStep d x).1 ∧ (decoderStep d x).2 = .none)
    {k : Nat} {s : State} (hs : closed s.state) (hx : ∀ x ∈ samplesOf (s.inputs.take k), allowed x) :
    eventsOf k s = [] := by
  induction k generalizing s with
  | zero => rfl
  | succ k ih =>
    obtain ⟨t, ht⟩ := step_completes s
    rw [step_samplesOf ht, List.forall_mem_append] at hx
    obtain ⟨hnow, hlater⟩ := hx
    rw [eventsOf_succ_of_step ht]
    rcases step_decoder_cases ht with ⟨x, hsam, rfl⟩ | ⟨-, hstate, he⟩
    · obtain ⟨hnext, hdir⟩ := hcell s.state x hs (hnow x (by simp [hsam]))
      have he : (decodeAndUpdate s x).advance.event = none :=
        State.event_of_not_pulse (by rw [decodeAndUpdate_of_none hdir]; rfl)
      rw [he, ih (by rwa [State.advance_state, decodeAndUpdate_state]) hlater]
      rfl
    · have hclosed : closed t.state := by
        rcases hstate with h | h <;> rw [h]
        · exact hstart
        · exact hs
      rw [he, ih hclosed hlater]
      rfl

/-- A direction needs sample 00 (R67). -/
theorem decoderStep_none_of_ne_zero {d : DecoderState} {x : Sample} (h : x ≠ 0) : (decoderStep d x).2 = .none := by
  by_contra hd
  exact h (decoderStep_direction_ne_none_iff.1 hd).2

/-- The states that no sequence reaches past its first sample. -/
def DecoderState.early (d : DecoderState) : Prop := d.progress ≤ 1

/-- The second sample of both sequences is 11, so without it they never get past the first (R65). -/
theorem early_decoderStep_of_ne_three {d : DecoderState} {x : Sample} (hd : d.early) (hx : x ≠ 3) :
    (decoderStep d x).1.early ∧ (decoderStep d x).2 = .none := by
  unfold DecoderState.early at *
  revert x; cases d <;> revert hd <;> decide

/-- Settles O49: without sample 00 no cell has a direction; without 11 the decoder stays before the second sample of
either sequence. -/
theorem oneSidedEdgesNeverPulse : Obligations.OneSidedEdgesNeverPulse := by
  rintro k s hstart (h0 | h3)
  · exact eventsOf_eq_nil_of_closed (closed := fun _ => True) (allowed := (· ≠ 0)) trivial
      (fun _ _ _ hx => ⟨trivial, decoderStep_none_of_ne_zero hx⟩) trivial fun x hx h => h0 (h ▸ hx)
  · exact eventsOf_eq_nil_of_closed (closed := DecoderState.early) (allowed := (· ≠ 3)) (Nat.zero_le 1)
      (fun _ _ => early_decoderStep_of_ne_three) (hstart ▸ Nat.zero_le 1) fun x hx h => h3 (h ▸ hx)

end Sys2Proof.Machine
end

section
/-! The settled statement of 41_counter_rotation.md about the fields of the rotations value (R91). -/

namespace Sys2Proof.Machine

/-- Settles O52: the fields below the sign bit are those of a normal number, and the sign bit lies above both. -/
theorem rotationsAreNormal : Obligations.RotationsAreNormal := by
  intro f c p hc hp hp' h0
  obtain ⟨hlo, hhi⟩ := rotMagnitude_bounds (by omega) hc hp hp' f
  rw [rot_toNat hc hp hp' f h0]
  cases f <;> simp only [fractionBits, exponentBits] at * <;> split <;> omega

end Sys2Proof.Machine
end
